-- ==== Sys2Proof/Word.lean ====
section
/-! DEFINITION. The widths of spec/10_state.md rule R20 and spec/30_encoding.md rule R70 as types.
A time or a duration in milliseconds is a natural number (R6 `TIME_W`, R8, R182), so only registers, the
operation word and the interval are bit vectors. -/

namespace Sys2Proof

/-- A 16-bit register, operand or event payload (R20, R70, R78). -/
abbrev Word := BitVec 16

/-- The 6 bits that hold `bitsReceived` (R22). -/
abbrev Count := BitVec 6

/-- The 35-bit operation word `W[34:0]` (R70). -/
abbrev OpWord := BitVec 35

/-- The 17 bits of an interval (R72). -/
abbrev Interval := BitVec 17

end Sys2Proof
end

