-- ==== Sys2Proof/Config.lean ====
section
/-! DEFINITION. The configuration of spec/00_scope.md rule R6: the thresholds, the frame and section sizes, the window and
the sleeps with the spec's default values, and the two open parameters, which have no default. No
operation writes any of it (R36, R181). -/

namespace Sys2Proof

/-- The parameters of rule R6. A corrected literal is another value of this record and no change of
any rule (decision D6). -/
structure Config where
  /-- `T_ONE`: least interval, in microseconds, that is a 1-bit. -/
  tOne : Nat := 1600
  /-- `T_REPEAT`: least interval that is a repeat marker. -/
  tRepeat : Nat := 2700
  /-- `T_START`: least interval that is a start marker. -/
  tStart : Nat := 12500
  /-- `T_NOISE`: least interval that is noise. -/
  tNoise : Nat := 14500
  /-- `FRAME_BITS`: bits in a datagram. -/
  frameBits : Nat := 32
  /-- `WORD_BITS`: bits in each of the two sections. -/
  wordBits : Nat := 16
  /-- `REPEAT_WINDOW`: milliseconds added to `now` to make the deadline. -/
  repeatWindow : Nat := 120
  /-- `WD_TRACK_SLEEP`: watchdog sleep while Tracking. -/
  wdTrackSleep : Nat := repeatWindow
  /-- `WD_IDLE_SLEEP`: watchdog sleep while Idle. -/
  wdIdleSleep : Nat := 2 * repeatWindow
  /-- `TARGET_ADDRESS`: OPEN, no default (decision D5). -/
  targetAddress : Word
  /-- `WD_SLACK`: OPEN (decision D12); `none` is "unbounded". -/
  wdSlack : Option Nat
  deriving DecidableEq, Repr

/-- The premises of rules R6, R100 and R203 on a configuration. -/
structure Config.Ordered (c : Config) : Prop where
  one_pos : 0 < c.tOne
  one_lt_repeat : c.tOne < c.tRepeat
  repeat_lt_start : c.tRepeat < c.tStart
  start_lt_noise : c.tStart < c.tNoise
  window_pos : 0 < c.repeatWindow
  track_pos : 0 < c.wdTrackSleep
  idle_pos : 0 < c.wdIdleSleep

/-- The premise on the two sizes that R6 does not write down: a frame is its two sections (R52), and a section fits a
16-bit register (R20). DEDUCED, assumption 20. The defaults meet it. -/
structure Config.FrameFits (c : Config) : Prop where
  frame_eq : c.frameBits = 2 * c.wordBits
  word_pos : 0 < c.wordBits
  word_le : c.wordBits ≤ 16

/-- The value of `TARGET_ADDRESS`, given nowhere (R6, N1.2): a free value, DESIGN CHOICE of assumption 5. -/
opaque Config.openTargetAddress : Word

/-- The value of `WD_SLACK`, given nowhere (R6, N7.1): a free value, DESIGN CHOICE of assumption 5. -/
opaque Config.openWdSlack : Option Nat

/-- Every parameter at its default, the two open ones free. -/
def Config.reference : Config where
  targetAddress := Config.openTargetAddress
  wdSlack := Config.openWdSlack

end Sys2Proof
end

