-- ==== Sys2Proof/Syntax.lean ====
section
/-! DEFINITION. The operations: one constructor per row of spec/opcode_table.json (spec/30_encoding.md
rules R71, R85). `PULSE` is split into the five interval classes, as the table splits it, and
keeps both operands. A format-Z operation has no operand: `W[31:0]` is ignored (R71, R80 (c)). -/

namespace Sys2Proof

/-- The classifier's verdict on an interval (R12, R73). -/
inductive IntervalClass where
  /-- "a 0-bit" -/
  | zero
  /-- "a 1-bit" -/
  | one
  /-- "a repeat marker" -/
  | repeatMarker
  /-- "a start marker (leader pulse of a new transmission)" -/
  | start
  /-- "unrecognized/noise interval" -/
  | noise
  deriving DecidableEq, Repr

/-- The operations of the opcode table. -/
inductive Instr where
  /-- `NOP` (R155) -/
  | nop
  /-- `CONNECT` (R150, R151) -/
  | connect
  /-- `PULSE.ZERO` (R102) -/
  | pulseZero (mark space : Word)
  /-- `PULSE.ONE` (R103) -/
  | pulseOne (mark space : Word)
  /-- `PULSE.REPEAT` (R104) -/
  | pulseRepeat (mark space : Word)
  /-- `PULSE.START` (R105) -/
  | pulseStart (mark space : Word)
  /-- `PULSE.NOISE` (R106) -/
  | pulseNoise (mark space : Word)
  /-- `WDWAKE` (R140) -/
  | wdwake
  /-- `POLLRX` (R152) -/
  | pollrx
  /-- `GETCMD` (R153) -/
  | getcmd
  /-- `GETDGRAM` (R154) -/
  | getdgram
  /-- the reserved code `0b111` (R80) -/
  | reserved
  deriving DecidableEq, Repr

end Sys2Proof
end

