-- ==== Sys2Proof/Machine/Operands.lean ====
section
/-! DEFINITION. Operand assembly and the functions on operand values: the interval (spec/30_encoding.md
rule R72), the classifier (spec/40_decoder.md rule R100), the 16-bit shift (spec/00_scope.md
rule R9) and the section of a committed datagram (spec/40_decoder.md rule R101). -/

namespace Sys2Proof.Machine

open Sys2Proof

/-- `interval = zext_17(mark) + zext_17(space)` (R72). -/
def interval (mark space : Word) : Interval :=
  mark.zeroExtend 17 + space.zeroExtend 17

/-- `classify` (R100), the comparisons tried in the order of R82. -/
def classify (c : Config) (i : Nat) : IntervalClass :=
  if i < c.tOne then .zero
  else if i < c.tRepeat then .one
  else if i < c.tStart then .repeatMarker
  else if i < c.tNoise then .start
  else .noise

/-- The class of a `PULSE` by its two operands (R72, R73): only the sum counts. -/
def pulseClass (c : Config) (mark space : Word) : IntervalClass :=
  classify c (interval mark space).toNat

/-- `shl16(w, b) = ((w << 1) | b)[15:0]` (R9): the old bit 15 is dropped, the new bit is bit 0. -/
def shl16 (w : Word) (bit : Bool) : Word :=
  (w <<< 1) ||| (BitVec.ofBool bit).zeroExtend 16

/-- `w & 0xFFFF`, which the source applies to each accumulator at the commit (R101): its low `WORD_BITS` bits. At the
default `WORD_BITS` this is all of the register (R24; assumption 20). -/
def sectionBits (c : Config) (w : Word) : Word := w &&& BitVec.ofNat 16 (2 ^ c.wordBits - 1)

end Sys2Proof.Machine
end

