-- ==== Sys2Proof/WellFormed.lean ====
section
/-! DEFINITION. Which terms of `Instr` stand for an operation word: a `PULSE` of some class must have
operands whose interval is of that class (spec/30_encoding.md rules R73, R85: the `condition`
of the five `PULSE` rows). A format-Z operation has nothing to check. -/

namespace Sys2Proof

/-- The condition of an operation's row in spec/opcode_table.json, under the thresholds of `c`. -/
def Instr.wf (c : Config) : Instr → Bool
  | .nop => true
  | .connect => true
  | .pulseZero mark space => Machine.pulseClass c mark space == .zero
  | .pulseOne mark space => Machine.pulseClass c mark space == .one
  | .pulseRepeat mark space => Machine.pulseClass c mark space == .repeatMarker
  | .pulseStart mark space => Machine.pulseClass c mark space == .start
  | .pulseNoise mark space => Machine.pulseClass c mark space == .noise
  | .wdwake => true
  | .pollrx => true
  | .getcmd => true
  | .getdgram => true
  | .reserved => true

end Sys2Proof
end

