-- ==== Sys2Proof/Decode.lean ====
section
/-! DEFINITION. The operation word: its fields (spec/30_encoding.md rule R70), the decoder (R82, total on all
`2^35` words), the decoder of a number, which rejects by name what is no operation word, and the
encoder (R71, R86). -/

namespace Sys2Proof

/-- `W[34:32]`, the operation code (R70). -/
def opField (w : OpWord) : BitVec 3 := w.extractLsb' 32 3

/-- `W[31:16]`, the mark duration (R70). -/
def markField (w : OpWord) : Word := w.extractLsb' 16 16

/-- `W[15:0]`, the space duration (R70). -/
def spaceField (w : OpWord) : Word := w.extractLsb' 0 16

/-- `op[34:32] mark[31:16] space[15:0]` (R86). A format-Z word is packed with zeros in `W[31:0]`. -/
def packWord (op : BitVec 3) (mark space : Word) : OpWord := op ++ mark ++ space

/-- `PULSE` with the class its interval has been given (R82). -/
def Instr.ofClass (mark space : Word) : IntervalClass → Instr
  | .zero => .pulseZero mark space
  | .one => .pulseOne mark space
  | .repeatMarker => .pulseRepeat mark space
  | .start => .pulseStart mark space
  | .noise => .pulseNoise mark space

/-- The decoding algorithm of R82 on the three fields, under the thresholds of `c`. -/
def decodeFields (c : Config) (op : BitVec 3) (mark space : Word) : Instr :=
  match op.toNat with
  | 0 => .nop
  | 1 => .connect
  | 2 => .ofClass mark space (Machine.pulseClass c mark space)
  | 3 => .wdwake
  | 4 => .pollrx
  | 5 => .getcmd
  | 6 => .getdgram
  | _ => .reserved

/-- The decoder of operation words (R82). -/
def decode (c : Config) (w : OpWord) : Instr :=
  decodeFields c (opField w) (markField w) (spaceField w)

/-- Why a number is no operation word. -/
inductive DecodeReject where
  /-- The number does not fit the port's 35 bits (R70). Raised by `decodeNat`; safe: no such word exists. -/
  | widerThanPort
  deriving DecidableEq, Repr

/-- The operation a number stands for, or the name of the reason why it stands for none. -/
def decodeNat (c : Config) (n : Nat) : Except DecodeReject Instr :=
  if n < 2 ^ 35 then .ok (decode c (BitVec.ofNat 35 n)) else .error .widerThanPort

/-- The operation code of R71. -/
def Instr.opCode : Instr → BitVec 3
  | .nop => 0b000#3
  | .connect => 0b001#3
  | .pulseZero _ _ => 0b010#3
  | .pulseOne _ _ => 0b010#3
  | .pulseRepeat _ _ => 0b010#3
  | .pulseStart _ _ => 0b010#3
  | .pulseNoise _ _ => 0b010#3
  | .wdwake => 0b011#3
  | .pollrx => 0b100#3
  | .getcmd => 0b101#3
  | .getdgram => 0b110#3
  | .reserved => 0b111#3

/-- The word of an operation (R71, R86). -/
def encode : Instr → OpWord
  | .nop => packWord 0b000#3 0#16 0#16
  | .connect => packWord 0b001#3 0#16 0#16
  | .pulseZero mark space => packWord 0b010#3 mark space
  | .pulseOne mark space => packWord 0b010#3 mark space
  | .pulseRepeat mark space => packWord 0b010#3 mark space
  | .pulseStart mark space => packWord 0b010#3 mark space
  | .pulseNoise mark space => packWord 0b010#3 mark space
  | .wdwake => packWord 0b011#3 0#16 0#16
  | .pollrx => packWord 0b100#3 0#16 0#16
  | .getcmd => packWord 0b101#3 0#16 0#16
  | .getdgram => packWord 0b110#3 0#16 0#16
  | .reserved => packWord 0b111#3 0#16 0#16

/-- The operation the decoder reads from the low `nbits` bits of `w`, numbered as spec/opcode_table.json
numbers them (the port has one 35-bit word and no byte order), under the default thresholds. -/
def decodeTableWord (nbits w : Nat) : Option Instr :=
  match decodeNat Config.reference (w % 2 ^ nbits) with
  | .ok i => some i
  | .error _ => none

end Sys2Proof
end

