-- ==== Sys2Proof/Machine/State.lean ====
section
/-! DEFINITION. The state: the record of spec/10_state.md rule R20, then what R21 calls parameters, inputs and
outputs of a step and this interface can hold nowhere else (assumptions 1, 3, 4, 5). The block
has no memory, no program counter and no trap state (R34, R38, R170). -/

namespace Sys2Proof.Machine

open Sys2Proof

/-- A committed datagram (R25): the two sections change together or not at all. -/
structure Datagram where
  /-- `addressSectionBits` -/
  address : Word
  /-- `commandSectionBits` -/
  command : Word
  deriving DecidableEq, Repr

/-- What the decoder signals to the router (R12, R77). -/
inductive DecResult where
  | incomplete
  | repeatMarker
  | datagramReady
  deriving DecidableEq, Repr

/-- An output event (R78). -/
inductive Event where
  /-- `datagram-ready`, which "carries no payload" -/
  | datagramReady
  /-- `released(c)` -/
  | released (c : Word)
  /-- `pressed(c)` -/
  | pressed (c : Word)
  deriving DecidableEq, Repr

/-- A query response (R79); `none` inside is `q_valid = 0`. -/
inductive Reply where
  /-- of `POLLRX`: `q_flag` -/
  | flag (b : Bool)
  /-- of `GETCMD`: `q_valid`, `q_cmd` -/
  | command (c : Option Word)
  /-- of `GETDGRAM`: `q_valid`, `q_addr`, `q_cmd` -/
  | datagram (d : Option Datagram)
  deriving DecidableEq, Repr

/-- What one step shows on the output port (R77 to R79). -/
structure Output where
  /-- `dec_result`; `none` is the code `0b00` -/
  decResult : Option DecResult := none
  /-- the events, in the order of their `emit`s (R9) -/
  events : List Event := []
  /-- the response, at most one per step (R9) -/
  reply : Option Reply := none
  deriving DecidableEq, Repr

/-- One element `(now_k, op_k)` of a run (R7, R70). -/
structure Input where
  /-- the time input of the step -/
  now : Nat
  /-- the operation word of the step -/
  word : OpWord
  deriving DecidableEq, Repr

/-- The whole machine. -/
structure State where
  /-- R20, R40: the "has the receiver been connected" guard -/
  connected : Bool
  /-- R22: bits accumulated since the last datagram boundary, 0 to `FRAME_BITS` (32) -/
  bitsReceived : Count
  /-- R24: accumulator of the first sixteen bits -/
  highWord : Word
  /-- R24: accumulator of the last sixteen bits -/
  lowWord : Word
  /-- R25: `datagramValid`, `addressSectionBits`, `commandSectionBits` as the optional pair of R20 -/
  datagram : Option Datagram
  /-- R27: set at every commit, cleared by `POLLRX` -/
  hasNewDatagram : Bool
  /-- R28: `activeValid` and `activeValue` as the optional value of R20 -/
  activeCommand : Option Word
  /-- R29: absolute time in milliseconds -/
  repeatDeadline : Nat
  /-- R31: the time before which the watchdog does not take its next step -/
  wdWake : Nat
  /-- R6, R36: the configuration, which no operation writes (assumption 5) -/
  cfg : Config
  /-- R21, R182: the time input of the latest step, for the premise `now_k <= now_(k+1)` (assumption 3) -/
  now : Nat
  /-- R7: what remains of the run, in the order in which it is taken (assumption 1) -/
  inputs : List Input
  /-- R21, R77 to R79: what the latest step showed (assumption 4) -/
  out : Output
  deriving DecidableEq, Repr

/-- No condition of the block is a fault (R170: it "raises no exception [...] and never stops"; 93 Part 1: "Nothing in
the block is `fault` or `stuck`"). So nobody raises one, and the type has no constructor. -/
inductive Fault where
  deriving DecidableEq, Repr

/-- Why a step has no next state. -/
inductive Refusal where
  /-- An operation that has no meaning in this model yet; raised by `exec` only, in the arm that names it. Safe. -/
  | notModelled (mnemonic : String)
  /-- The reserved code `0b111` (R80 (a), R156, D16: "a model should refuse a run that holds it"); raised by
  `execReserved`. Safe: nothing is proved about a run that holds it. -/
  | reservedOperation
  /-- A run whose `now` decreases (R207, D3: "a model takes it as a named launch premise and refuses"); raised by
  `offered`. Safe: nothing is proved about such a run. -/
  | timeRanBackwards
  deriving DecidableEq, Repr

/-- The state after hardware reset under configuration `c` (R200): `connected = 0`, `bitsReceived = 0`, no datagram,
`hasNewDatagram = 0`, `activeCommand = none`. The registers R200 calls unspecified are 0 (DESIGN CHOICE,
assumption 6); time starts at 0 with nothing offered and nothing shown (assumptions 1, 3, 4). -/
def State.powerUp (c : Config) : State where
  connected := false
  bitsReceived := 0#6
  highWord := 0#16
  lowWord := 0#16
  datagram := none
  hasNewDatagram := false
  activeCommand := none
  repeatDeadline := 0
  wdWake := 0
  cfg := c
  now := 0
  inputs := []
  out := {}

/-- The state right after reset, the defaults of R6 in force. -/
def State.reset : State := State.powerUp Config.reference

end Sys2Proof.Machine
end

