-- ==== Sys2Proof/Machine/Flags.lean ====
section
/-! DEFINITION. The four one-bit fields of spec/10_state.md rule R35 and the watchdog's mode, which is a function of one of
them (R32). No flag is a side effect of an arithmetic result (R35). -/

namespace Sys2Proof.Machine

open Sys2Proof

/-- `datagramValid` (R25). -/
def State.datagramValid (s : State) : Bool := s.datagram.isSome

/-- `activeValid` (R28). -/
def State.activeValid (s : State) : Bool := s.activeCommand.isSome

/-- `connected <- 1` (R150); no operation writes 0 (R181). -/
def State.markConnected (s : State) : State := { s with connected := true }

/-- `hasNewDatagram <- b` (R27). -/
def State.setReceived (s : State) (b : Bool) : State := { s with hasNewDatagram := b }

/-- The watchdog's two states (R32). -/
inductive WatchdogMode where
  | idle
  | tracking
  deriving DecidableEq, Repr

/-- "Idle exactly when `activeCommand = none`" (R32). -/
def State.mode (s : State) : WatchdogMode := if s.activeValid then .tracking else .idle

end Sys2Proof.Machine
end

