-- ==== Sys2Proof/Machine/Ops.lean ====
section
/-! DEFINITION. The named operations over the registers, the output port and the run. The block has no addressable memory
(spec/20_memory.md rule R50), and no exception to take or to return from (spec/60_exceptions.md rules R170,
R180): an erroneous interval is an ordinary outcome of its own step. -/

namespace Sys2Proof.Machine

open Sys2Proof

/-! ### The output port -/

/-- Every output starts a step empty (R9, R78: a strobe is 1 only "for the step that raises the event"). -/
def State.clearOut (s : State) : State := { s with out := {} }

/-- `emit E` (R9): append the event to the step's list. -/
def State.emit (s : State) (e : Event) : State :=
  { s with out := { s.out with events := s.out.events ++ [e] } }

/-- `reply v` (R9). -/
def State.giveReply (s : State) (r : Reply) : State := { s with out := { s.out with reply := some r } }

/-- Show the decoder's result on `dec_result` (R77). -/
def State.showResult (s : State) (r : DecResult) : State :=
  { s with out := { s.out with decResult := some r } }

/-! ### DecoderState and the datagram -/

/-- `bitsReceived <- n`. -/
def State.setCount (s : State) (n : Count) : State := { s with bitsReceived := n }

/-- `highWord <- shl16(s.highWord, bit)` (R101). -/
def State.shiftHigh (s : State) (bit : Bool) : State := { s with highWord := shl16 s.highWord bit }

/-- `lowWord <- shl16(s.lowWord, bit)` (R101). -/
def State.shiftLow (s : State) (bit : Bool) : State := { s with lowWord := shl16 s.lowWord bit }

/-- Write the whole datagram at once (R59); `none` is `datagramValid <- 0`. -/
def State.setDatagram (s : State) (d : Option Datagram) : State := { s with datagram := d }

/-! ### ButtonState and the watchdog's timer -/

/-- `activeCommand <- a`. -/
def State.setActive (s : State) (a : Option Word) : State := { s with activeCommand := a }

/-- `repeatDeadline <- now + REPEAT_WINDOW`, exact (R121, R122). -/
def State.refreshDeadline (s : State) : State :=
  { s with repeatDeadline := s.now + s.cfg.repeatWindow }

/-- A sleep of length `len` begun now: `wdWake <- now + len` (R31). -/
def State.sleepFor (s : State) (len : Nat) : State := { s with wdWake := s.now + len }

/-- `wdWake <- now`: the watchdog may take its next step at once (R150). -/
def State.wakeAtOnce (s : State) : State := { s with wdWake := s.now }

/-! ### The run -/

/-- Take one element of the run: its time becomes the step's `now` (R7, R70). -/
def State.takeInput (s : State) (i : Input) (rest : List Input) : State :=
  { s with now := i.now, inputs := rest }

/-- The operation word of the next step and the state in which it is executed. A run whose time decreases is refused
(R207). With nothing offered the step is a `NOP` at an unchanged time (R155: `NOP` "stands for a step of the
port in which no agent offers an operation"; assumption 2). -/
def offered (s : State) : Except Refusal (OpWord × State) :=
  match s.inputs with
  | [] => .ok (encode .nop, s)
  | i :: rest => if i.now < s.now then .error .timeRanBackwards else .ok (i.word, s.takeInput i rest)

/-- Hardware reset of a running block (R201): the reset state of R200 under the same configuration, "no event is raised
by it". It is no operation and stands in no run. -/
def hardwareReset (s : State) : State := State.powerUp s.cfg

end Sys2Proof.Machine
end

