-- ==== Sys2Proof/Machine/Consumer.lean ====
section
/-! DEFINITION. The consumer's operations (spec/43_host.md) and the reserved code. -/

namespace Sys2Proof.Machine

open Sys2Proof

/-- The fields the first `CONNECT` writes (R150); it leaves the accumulators and `repeatDeadline` as they are. -/
def createState (s : State) : State :=
  (((((s.markConnected).setCount 0#6).setDatagram none).setReceived false).setActive none).wakeAtOnce

/-- `CONNECT`: creates the state once (R150), nothing when connected (R151). -/
def execConnect (s : State) : Host.Outcome State Fault Refusal :=
  .next (if s.connected then s.clearOut else createState s.clearOut)

/-- `POLLRX`: reply the flag and clear it, in one step (R152). -/
def execPollrx (s : State) : Host.Outcome State Fault Refusal :=
  .next ((s.clearOut.giveReply (.flag s.hasNewDatagram)).setReceived false)

/-- `GETCMD`: the command section of the latest datagram, or none (R153). -/
def execGetcmd (s : State) : Host.Outcome State Fault Refusal :=
  .next (s.clearOut.giveReply (.command (s.datagram.map Datagram.command)))

/-- `GETDGRAM`: the latest datagram, or none (R154). -/
def execGetdgram (s : State) : Host.Outcome State Fault Refusal :=
  .next (s.clearOut.giveReply (.datagram s.datagram))

/-- `NOP`: no field changes, no response, no event (R155). -/
def execNop (s : State) : Host.Outcome State Fault Refusal := .next s.clearOut

/-- The reserved code: "a model should refuse a run that holds it" (R80 (a), R156; assumption 10). -/
def execReserved (_s : State) : Host.Outcome State Fault Refusal := .refused .reservedOperation

end Sys2Proof.Machine
end

