-- ==== Sys2Proof/Machine/Router.lean ====
section
/-! DEFINITION. The datagram router (spec/41_router.md): the second half of every connected `PULSE` step. -/

namespace Sys2Proof.Machine

open Sys2Proof

/-- The button logic on a datagram just committed: address filter (R124), command change (R125: the old command is
released first), same command (R126). -/
def buttonLogic (d : Datagram) (s : State) : State :=
  if d.address = s.cfg.targetAddress then
    if s.activeCommand = some d.command then s
    else
      match s.activeCommand with
      | none => (s.setActive (some d.command)).emit (.pressed d.command)
      | some old => ((s.emit (.released old)).setActive (some d.command)).emit (.pressed d.command)
  else s

/-- Result DatagramReady (R121): the flag, the deadline and `datagram-ready` whatever the address, then the button logic
on the datagram the decoder has just committed. (After a commit there is a datagram, so the first arm is
not taken by any step.) -/
def routeDatagram (s : State) : State :=
  match s.datagram with
  | none => ((s.setReceived true).refreshDeadline).emit .datagramReady
  | some d => buttonLogic d (((s.setReceived true).refreshDeadline).emit .datagramReady)

/-- `route(result)` (R120). -/
def route (r : DecResult) (s : State) : State :=
  match r with
  | .datagramReady => routeDatagram s
  | .repeatMarker => s.refreshDeadline
  | .incomplete => s

end Sys2Proof.Machine
end

