-- ==== Sys2Proof/Machine/Pulse.lean ====
section
/-! DEFINITION. The PULSE family (spec/40_decoder.md): the bit accumulator and the five classes of a pulse. The class of an
interval is chosen by the decoder of the operation word (R82), so a meaning here does not look at its
operands again. -/

namespace Sys2Proof.Machine

open Sys2Proof

/-- What the last bit of a frame commits (R101): `highWord`, which it does not write, and the new value of `lowWord`. -/
def committed (bit : Bool) (s : State) : Datagram where
  address := sectionBits s.cfg s.highWord
  command := sectionBits s.cfg (shl16 s.lowWord bit)

/-- `append(bit)` (R101), with the overrun of R107: at `FRAME_BITS`, 32, nothing is written. (A count above it, which no
run reaches, is held too: assumption 8.) The literals 16 and 32 of R101 are `WORD_BITS` and `FRAME_BITS` of R6, read
from the configuration (assumption 20). -/
def appendBit (bit : Bool) (s : State) : State × DecResult :=
  if s.cfg.frameBits ≤ s.bitsReceived.toNat then (s, .incomplete)
  else if s.bitsReceived.toNat + 1 ≤ s.cfg.wordBits then
    ((s.setCount (s.bitsReceived + 1)).shiftHigh bit, .incomplete)
  else if s.bitsReceived.toNat + 1 = s.cfg.frameBits then
    (((s.setCount (s.bitsReceived + 1)).shiftLow bit).setDatagram (some (committed bit s)), .datagramReady)
  else ((s.setCount (s.bitsReceived + 1)).shiftLow bit, .incomplete)

/-- The whole step of a pulse of a bit class (R113): decoder, then router, in one atomic step; nothing before `CONNECT`
(R108). -/
def pulseBit (bit : Bool) (s : State) : State :=
  if s.connected then
    route (appendBit bit s.clearOut).2 ((appendBit bit s.clearOut).1.showResult (appendBit bit s.clearOut).2)
  else s.clearOut

/-- The whole step of a pulse of class Repeat, Start or Noise, which signals `r` (R113): `bitsReceived <- 0`, the
accumulators are not cleared (R111), then the router; nothing before `CONNECT` (R108). -/
def pulseBoundary (r : DecResult) (s : State) : State :=
  if s.connected then route r ((s.clearOut.setCount 0#6).showResult r) else s.clearOut

/-- `PULSE.ZERO`: `append(0)`, then `route` (R102). -/
def execPulseZero (_mark _space : Word) (s : State) : Host.Outcome State Fault Refusal :=
  .next (pulseBit false s)

/-- `PULSE.ONE`: `append(1)`, then `route` (R103). -/
def execPulseOne (_mark _space : Word) (s : State) : Host.Outcome State Fault Refusal :=
  .next (pulseBit true s)

/-- `PULSE.REPEAT`: `bitsReceived <- 0`, result Repeat, which refreshes the deadline (R104, R122). -/
def execPulseRepeat (_mark _space : Word) (s : State) : Host.Outcome State Fault Refusal :=
  .next (pulseBoundary .repeatMarker s)

/-- `PULSE.START`: `bitsReceived <- 0`, result Incomplete (R105). -/
def execPulseStart (_mark _space : Word) (s : State) : Host.Outcome State Fault Refusal :=
  .next (pulseBoundary .incomplete s)

/-- `PULSE.NOISE`: `bitsReceived <- 0`, result Incomplete (R106, R171). -/
def execPulseNoise (_mark _space : Word) (s : State) : Host.Outcome State Fault Refusal :=
  .next (pulseBoundary .incomplete s)

end Sys2Proof.Machine
end

