-- ==== Sys2Proof/Machine/Watchdog.lean ====
section
/-! DEFINITION. The repeat watchdog (spec/42_watchdog.md): `WDWAKE`, one pass of its loop. -/

namespace Sys2Proof.Machine

open Sys2Proof

/-- The guard of R140: connected, and the sleep has run out. -/
def wakeEnabled (s : State) : Bool := s.connected && decide (s.wdWake ≤ s.now)

/-- The pass itself: Idle (R141), deadline passed (R142, strictly later), deadline not passed (R143). -/
def wakePass (s : State) : State :=
  match s.activeCommand with
  | none => s.sleepFor s.cfg.wdIdleSleep
  | some c =>
    if s.repeatDeadline < s.now then ((s.emit (.released c)).setActive none).sleepFor s.cfg.wdIdleSleep
    else s.sleepFor s.cfg.wdTrackSleep

/-- `WDWAKE` (R140); a wake whose guard fails is a step without effect (R147, assumption 9). -/
def execWdwake (s : State) : Host.Outcome State Fault Refusal :=
  .next (if wakeEnabled s then wakePass s.clearOut else s.clearOut)

end Sys2Proof.Machine
end

