-- ==== Sys2Proof/Machine/Dispatch.lean ====
section
/-! DEFINITION. One arm per operation of the opcode table. -/

namespace Sys2Proof.Machine

open Sys2Proof

def exec (i : Instr) (s : State) : Host.Outcome State Fault Refusal :=
  match i with
  | .nop => Sys2Proof.Machine.execNop s
  | .connect => Sys2Proof.Machine.execConnect s
  | .pulseZero mark space => Sys2Proof.Machine.execPulseZero mark space s
  | .pulseOne mark space => Sys2Proof.Machine.execPulseOne mark space s
  | .pulseRepeat mark space => Sys2Proof.Machine.execPulseRepeat mark space s
  | .pulseStart mark space => Sys2Proof.Machine.execPulseStart mark space s
  | .pulseNoise mark space => Sys2Proof.Machine.execPulseNoise mark space s
  | .wdwake => Sys2Proof.Machine.execWdwake s
  | .pollrx => Sys2Proof.Machine.execPollrx s
  | .getcmd => Sys2Proof.Machine.execGetcmd s
  | .getdgram => Sys2Proof.Machine.execGetdgram s
  | .reserved => Sys2Proof.Machine.execReserved s

end Sys2Proof.Machine
end

