-- ==== Sys2Proof/Machine/Step.lean ====
section
/-! DEFINITION. One step: the operation offered next, decoded and executed (spec/00_scope.md rule R7, spec/30_encoding.md
rule R82). -/

namespace Sys2Proof.Machine

open Sys2Proof

/-- One step of a run. -/
def step (s : State) : Host.Outcome State Fault Refusal :=
  match offered s with
  | .ok (w, t) => exec (decode t.cfg w) t
  | .error r => .refused r

/-- `s` with the operation word `w` offered next, at the time of the latest step, so that the very next step runs it
(assumption 11). -/
def State.withFetchWord (s : State) (nbits w : Nat) : State :=
  { s with inputs := ⟨s.now, BitVec.ofNat 35 (w % 2 ^ nbits)⟩ :: s.inputs }

end Sys2Proof.Machine
end

