-- ==== Sys2Proof/Machine/Port.lean ====
section
/-! DEFINITION. The output port of spec/30_encoding.md rules R77 to R79 as functions of what a step showed. A payload whose
strobe or valid bit is 0 is unspecified there, and is `none` here. -/

namespace Sys2Proof.Machine

open Sys2Proof

/-- `dec_result` (R77). -/
def Output.decCode (o : Output) : BitVec 2 :=
  match o.decResult with
  | none => 0b00#2
  | some .incomplete => 0b01#2
  | some .repeatMarker => 0b10#2
  | some .datagramReady => 0b11#2

/-- `evt_datagram` (R78). -/
def Output.evtDatagram (o : Output) : Bool := o.events.contains .datagramReady

/-- The command of the first `released` event of a list. -/
def firstReleased : List Event → Option Word
  | [] => none
  | .released c :: _ => some c
  | .pressed _ :: es => firstReleased es
  | .datagramReady :: es => firstReleased es

/-- The command of the first `pressed` event of a list. -/
def firstPressed : List Event → Option Word
  | [] => none
  | .pressed c :: _ => some c
  | .released _ :: es => firstPressed es
  | .datagramReady :: es => firstPressed es

/-- `evt_released_cmd` (R78). -/
def Output.evtReleasedCmd (o : Output) : Option Word := firstReleased o.events

/-- `evt_released` (R78). -/
def Output.evtReleased (o : Output) : Bool := o.evtReleasedCmd.isSome

/-- `evt_pressed_cmd` (R78). -/
def Output.evtPressedCmd (o : Output) : Option Word := firstPressed o.events

/-- `evt_pressed` (R78). -/
def Output.evtPressed (o : Output) : Bool := o.evtPressedCmd.isSome

/-- `q_flag` (R79); `none` when the step was no `POLLRX`. -/
def Output.qFlag (o : Output) : Option Bool :=
  match o.reply with
  | some (.flag b) => some b
  | _ => none

/-- `q_cmd` (R79). -/
def Output.qCmd (o : Output) : Option Word :=
  match o.reply with
  | some (.command c) => c
  | some (.datagram d) => d.map Datagram.command
  | _ => none

/-- `q_addr` (R79). -/
def Output.qAddr (o : Output) : Option Word :=
  match o.reply with
  | some (.datagram d) => d.map Datagram.address
  | _ => none

/-- `q_valid` (R79), the valid bit of the answer to `GETCMD` and `GETDGRAM`. In a step that is neither, R79 gives it no
value, and here it is absent: DESIGN CHOICE, assumption 16. -/
def Output.qValid (o : Output) : Option Bool :=
  match o.reply with
  | some (.command c) => some c.isSome
  | some (.datagram d) => some d.isSome
  | _ => none

end Sys2Proof.Machine
end

