-- ==== Sys2Proof/Machine/Trace.lean ====
section
/-! DEFINITION. A line of a trace (spec/30_encoding.md rule R83) as an element of a run, and the pseudo-operations of rule
R84: shorthands for `PULSE` words, with the nominal
timings of R75. The spec writes its own programs in them. -/

namespace Sys2Proof.Machine

open Sys2Proof

/-- The line `@<now> <MNEMONIC> [<mark> <space>]` (R83). -/
def traceLine (now : Nat) (i : Instr) : Input := ⟨now, encode i⟩

/-- The line `@+n`: "n ms after the previous line" (R83). -/
def traceLater (previous : Input) (n : Nat) (i : Instr) : Input := traceLine (previous.now + n) i

/-- `PULSE mark space` as an operation word (R70, R71). -/
def pulseWord (mark space : Word) : OpWord := packWord 0b010#3 mark space

/-- `LEADER`: interval 13500, class Start. -/
def leaderWord : OpWord := pulseWord 9000#16 4500#16

/-- `BIT0` and `BIT1`: intervals 1120 and 2250. -/
def bitWord (bit : Bool) : OpWord := if bit then pulseWord 560#16 1690#16 else pulseWord 560#16 560#16

/-- `REPEATCODE`: interval 11250, class Repeat. -/
def repeatCodeWord : OpWord := pulseWord 9000#16 2250#16

/-- `GAP`: interval 40560, class Noise. -/
def gapWord : OpWord := pulseWord 560#16 40000#16

/-- The bits of `v` from number `n - 1` down to 0. -/
def bitsDown (v : Word) : Nat → List Bool
  | 0 => []
  | n + 1 => v.getLsbD n :: bitsDown v n

/-- `BITS16 v`: the sixteen bits of `v`, most significant first. -/
def bits16Words (v : Word) : List OpWord := (bitsDown v 16).map bitWord

/-- `FRAME a c`: leader, address, command; 33 words. -/
def frameWords (a c : Word) : List OpWord := leaderWord :: (bits16Words a ++ bits16Words c)

end Sys2Proof.Machine
end

