-- ==== Sys2Proof/Safety.lean ====
section
/-! DEFINITION. The terms claims are stated in: the invariants of reachable states (spec/10_state.md rule R41), runs and
their events (spec/00_scope.md rule R7), the alternation of button events (spec/41_router.md rule R128), and
the obligations the spec puts on the environment (spec/42_watchdog.md rule R146). -/

namespace Sys2Proof

/-! ### Functions of the configuration and of an operation -/

/-- The longest sleep of the watchdog. -/
def Config.longestSleep (c : Config) : Nat := max c.wdTrackSleep c.wdIdleSleep

/-- `max(WD_TRACK_SLEEP, WD_IDLE_SLEEP - REPEAT_WINDOW)`: how long after the deadline the release may come, before the
slack is added (R144). -/
def Config.releaseLag (c : Config) : Nat := max c.wdTrackSleep (c.wdIdleSleep - c.repeatWindow)

/-- A number's low `WORD_BITS` bits as a register's content: `addressSectionBits` or `commandSectionBits` of an
accumulator that would hold the number (R101). At the default `WORD_BITS`, 16, its low sixteen bits. -/
def Config.sectionOf (c : Config) (n : Nat) : Word := BitVec.ofNat 16 (n % 2 ^ c.wordBits)

/-- The bit a pulse of a bit class carries (R76). -/
def Instr.bitOf : Instr → Option Bool
  | .pulseZero _ _ => some false
  | .pulseOne _ _ => some true
  | .nop => none
  | .connect => none
  | .pulseRepeat _ _ => none
  | .pulseStart _ _ => none
  | .pulseNoise _ _ => none
  | .wdwake => none
  | .pollrx => none
  | .getcmd => none
  | .getdgram => none
  | .reserved => none

/-- `PULSE` of a bit class: class One for 1, class Zero for 0 (R76). -/
def Instr.bitPulse (bit : Bool) (mark space : Word) : Instr :=
  if bit then .pulseOne mark space else .pulseZero mark space

/-- Pulses of the three classes that end a frame: Repeat, Start, Noise (R56). -/
def Instr.isBoundary : Instr → Bool
  | .pulseRepeat _ _ => true
  | .pulseStart _ _ => true
  | .pulseNoise _ _ => true
  | .nop => false
  | .connect => false
  | .pulseZero _ _ => false
  | .pulseOne _ _ => false
  | .wdwake => false
  | .pollrx => false
  | .getcmd => false
  | .getdgram => false
  | .reserved => false

/-- `PULSE` of any class (R71). -/
def Instr.isPulse : Instr → Bool
  | .pulseZero _ _ => true
  | .pulseOne _ _ => true
  | .pulseRepeat _ _ => true
  | .pulseStart _ _ => true
  | .pulseNoise _ _ => true
  | .nop => false
  | .connect => false
  | .wdwake => false
  | .pollrx => false
  | .getcmd => false
  | .getdgram => false
  | .reserved => false

end Sys2Proof

namespace Sys2Proof.Machine

open Sys2Proof

/-! ### Invariants -/

/-- The reachable-state invariants of R41 (i) to (iv). "`repeatDeadline` has been written" is said by where a written
deadline lies: `REPEAT_WINDOW` after a time that is not in the future (R29). -/
structure State.Inv (s : State) : Prop where
  count_le : s.bitsReceived.toNat ≤ s.cfg.frameBits
  unconnected : s.connected = false →
    s.bitsReceived = 0#6 ∧ s.datagram = none ∧ s.hasNewDatagram = false ∧ s.activeCommand = none
  received_valid : s.hasNewDatagram = true → s.datagram ≠ none
  active_valid : s.activeCommand ≠ none → s.datagram ≠ none
  deadline_written : s.activeCommand ≠ none → s.cfg.repeatWindow ≤ s.repeatDeadline
  deadline_past : s.activeCommand ≠ none → s.repeatDeadline ≤ s.now + s.cfg.repeatWindow

/-- What the argument of R144 says of the pending sleep: it began no later than now, and while a button is held it ends
no later than the release lag after the deadline. -/
structure State.SleepInv (s : State) : Prop where
  sleep_le : s.connected = true → s.wdWake ≤ s.now + s.cfg.longestSleep
  release_le : s.activeCommand ≠ none → s.wdWake ≤ s.repeatDeadline + s.cfg.releaseLag

/-! ### Finite runs -/

/-- The first `k` steps of the run that `s` holds. -/
def runSteps : Nat → State → Host.Outcome State Fault Refusal
  | 0, s => .next s
  | k + 1, s =>
    match step s with
    | .next t => runSteps k t
    | .fault f => .fault f
    | .refused r => .refused r

/-- The events of the first `k` steps, in order. -/
def eventsOfRun : Nat → State → List Event
  | 0, _ => []
  | k + 1, s =>
    match step s with
    | .next t => t.out.events ++ eventsOfRun k t
    | _ => []

/-- Button events are `pressed` and `released`; `datagram-ready` is none (R128, S4). -/
def Event.isButton : Event → Bool
  | .datagramReady => false
  | .released _ => true
  | .pressed _ => true

/-- The button held after a sequence of events, from the button held before it; `none` outside if a `pressed` comes while
a button is held or a `released` does not carry the command of the `pressed` before it (R128 (a), (b)). -/
def heldAfter : Option Word → List Event → Option (Option Word)
  | held, [] => some held
  | held, .datagramReady :: es => heldAfter held es
  | none, .pressed c :: es => heldAfter (some c) es
  | some _, .pressed _ :: _ => none
  | none, .released _ :: _ => none
  | some c, .released d :: es => if c = d then heldAfter none es else none

/-- The operations of the run that `s` holds. -/
def State.operations (s : State) : List Instr := s.inputs.map fun i => decode s.cfg i.word

/-- The bits the run's bit-class pulses carry, in arrival order. -/
def State.bitsOffered (s : State) : List Bool := s.operations.filterMap Instr.bitOf

/-- The premise `now_k <= now_(k+1)` of a run, from the time `t` on (R7, R207). -/
def timesFrom : Nat → List Input → Prop
  | _, [] => True
  | t, i :: is => t ≤ i.now ∧ timesFrom i.now is

/-- `sum over k of b_k * 2^(n-k)` for `b_1 .. b_n` (R115): the first received bit is the most significant. -/
def bitsValue : List Bool → Nat
  | [] => 0
  | b :: bs => b.toNat * 2 ^ bs.length + bitsValue bs

/-! ### The obligations on the environment -/

/-- The scheduling obligation of R146 on the first `k` steps, for a slack of `slack`: while connected, no step comes
later than `wdWake + slack`, since the wake due by then comes first. -/
def onSchedule (slack : Nat) : Nat → State → Prop
  | 0, _ => True
  | k + 1, s =>
    (∀ i rest, s.inputs = i :: rest → s.connected = true → i.now ≤ s.wdWake + slack) ∧
      ∀ t, step s = .next t → onSchedule slack k t

/-- None of the first `k` steps gives DatagramReady or Repeat: nothing refreshes the deadline (R144). -/
def noRefresh : Nat → State → Prop
  | 0, _ => True
  | k + 1, s =>
    ∀ t, step s = .next t →
      t.out.decResult ≠ some .datagramReady ∧ t.out.decResult ≠ some .repeatMarker ∧ noRefresh k t

/-- An infinite run (R7): step `k` takes input `inp k` in state `st k`. -/
def IsRun (inp : Nat → Input) (st : Nat → State) : Prop :=
  ∀ k, step { st k with inputs := [inp k] } = .next (st (k + 1))

/-- Weak fairness of `WDWAKE`, the obligation of R146 when `WD_SLACK` is unbounded: "a `WDWAKE` whose guard holds from
some time on is eventually taken". -/
def WakeFair (inp : Nat → Input) (st : Nat → State) : Prop :=
  ∀ k, (∀ j, k ≤ j → (st j).connected = true ∧ (st j).wdWake ≤ (inp j).now) →
    ∃ j, k ≤ j ∧ decode (st j).cfg (inp j).word = .wdwake

/-- Time passes every bound along the run. -/
def TimeDiverges (inp : Nat → Input) : Prop := ∀ T, ∃ k, T ≤ (inp k).now

/-- No step of an infinite run gives DatagramReady or Repeat. -/
def NeverRefreshed (st : Nat → State) : Prop :=
  ∀ k, (st (k + 1)).out.decResult ≠ some .datagramReady ∧ (st (k + 1)).out.decResult ≠ some .repeatMarker

end Sys2Proof.Machine
end

