-- ==== Sys2Proof/Certificates/Slice0/Obligations.lean ====
section
/-! DEFINITION. The statements for the provers, taken from the numbered rules of spec/. Each holds for every state it does
not exclude by name, and so for every configuration, every order of the agents and every value of
`TARGET_ADDRESS`. The numbers of a frame are the names of R6: `FRAME_BITS` for 32 and `WORD_BITS` for 16, which are
their defaults (ResetHoldsTheDefaults); a statement that needs that two sections make a frame and fit their registers
says so (`FrameFits`, assumption 20), and the defaults meet it. -/

open Sys2Proof Sys2Proof.Machine

/-! ### The operation word -/

/-- R82, R86: decoding the word of a well-formed operation gives it back, under any thresholds. -/
def Obligations.DecodeOfEncodeIsOperation : Prop :=
  ∀ (c : Config) (i : Instr), i.wf c = true → decode c (encode i) = i

/-- R71, R82: whatever a word decodes to is well formed, and its own word is the same word, but for the ignored `W[31:0]`
of a format-Z word. -/
def Obligations.EncodeOfDecodeKeepsWord : Prop :=
  ∀ (c : Config) (w : OpWord),
    (decode c w).wf c = true ∧
    encode (decode c w) =
      if opField w = 0b010#3 then w else packWord (opField w) 0#16 0#16

/-- The words of 95_test_vectors.md V-ENC, each written out from R70 and R71 (`op` in bits 34 to 32, `mark` in 31 to 16,
`space` in 15 to 0), under the default thresholds. -/
def Obligations.VectorWordsDecode : Prop :=
  ∀ c : Config, c.tOne = 1600 → c.tRepeat = 2700 → c.tStart = 12500 → c.tNoise = 14500 →
    decode c 0b00011111111111111111111111111111111#35 = .nop ∧
    decode c 0b00111011110101011011011111011101111#35 = .connect ∧
    decode c 0b01000000010001100000000001000110000#35 = .pulseZero 560#16 560#16 ∧
    decode c 0b01000000010001100000000011010011010#35 = .pulseOne 560#16 1690#16 ∧
    decode c 0b01000100011001010000000100011001010#35 = .pulseRepeat 9000#16 2250#16 ∧
    decode c 0b01000100011001010000001000110010100#35 = .pulseStart 9000#16 4500#16 ∧
    decode c 0b01000000010001100001001110001000000#35 = .pulseNoise 560#16 40000#16 ∧
    decode c 0b01100000000000000000000000000000000#35 = .wdwake ∧
    decode c 0b10011111111111111111111111111111111#35 = .pollrx ∧
    decode c 0b10100000000000000000000000000000000#35 = .getcmd ∧
    decode c 0b11000000000000000000000000000000000#35 = .getdgram ∧
    decode c 0b11100000000000000000000000000000000#35 = .reserved

/-- R82 as arithmetic on the word's number: the code is the quotient by `2^32`, the two operands are the two 16-bit digits
below it, and a pulse's class is found by the four unsigned comparisons of their exact sum, in order. -/
def Obligations.DecodingFollowsTheAlgorithm : Prop :=
  ∀ (c : Config) (w : OpWord),
    let op := w.toNat / 2 ^ 32
    let mark := w.toNat / 2 ^ 16 % 2 ^ 16
    let space := w.toNat % 2 ^ 16
    let i := mark + space
    let m := BitVec.ofNat 16 mark
    let p := BitVec.ofNat 16 space
    (op = 0 → decode c w = .nop) ∧
    (op = 1 → decode c w = .connect) ∧
    (op = 2 → i < c.tOne → decode c w = .pulseZero m p) ∧
    (op = 2 → c.tOne ≤ i → i < c.tRepeat → decode c w = .pulseOne m p) ∧
    (op = 2 → c.tOne ≤ i → c.tRepeat ≤ i → i < c.tStart → decode c w = .pulseRepeat m p) ∧
    (op = 2 → c.tOne ≤ i → c.tRepeat ≤ i → c.tStart ≤ i → i < c.tNoise → decode c w = .pulseStart m p) ∧
    (op = 2 → c.tOne ≤ i → c.tRepeat ≤ i → c.tStart ≤ i → c.tNoise ≤ i → decode c w = .pulseNoise m p) ∧
    (op = 3 → decode c w = .wdwake) ∧
    (op = 4 → decode c w = .pollrx) ∧
    (op = 5 → decode c w = .getcmd) ∧
    (op = 6 → decode c w = .getdgram) ∧
    (op = 7 → decode c w = .reserved)

/-- R72: the interval is the exact sum of the operands, at most 131070, and only the sum counts: two pulses with the same
sum are the same operation to the block. -/
def Obligations.IntervalIsExactSum : Prop :=
  (∀ mark space : Word,
    (interval mark space).toNat = mark.toNat + space.toNat ∧ (interval mark space).toNat ≤ 131070) ∧
  (∀ (s : State) (v w : OpWord), opField v = 0b010#3 → opField w = 0b010#3 →
    (markField v).toNat + (spaceField v).toNat = (markField w).toNat + (spaceField w).toNat →
    exec (decode s.cfg v) s = exec (decode s.cfg w) s)

/-- R100: under ordered thresholds each class is exactly its range. -/
def Obligations.ClassifierFollowsThresholds : Prop :=
  ∀ c : Config, 0 < c.tOne → c.tOne < c.tRepeat → c.tRepeat < c.tStart → c.tStart < c.tNoise → ∀ i : Nat,
    (classify c i = .zero ↔ i < c.tOne) ∧
    (classify c i = .one ↔ c.tOne ≤ i ∧ i < c.tRepeat) ∧
    (classify c i = .repeatMarker ↔ c.tRepeat ≤ i ∧ i < c.tStart) ∧
    (classify c i = .start ↔ c.tStart ≤ i ∧ i < c.tNoise) ∧
    (classify c i = .noise ↔ c.tNoise ≤ i)

/-! ### The decoder -/

/-- R101 with R107: the bit append at every count, for `PULSE.ZERO` (`bitPulse false`, R102) and `PULSE.ONE`
(`bitPulse true`, R103), 16 being `WORD_BITS` and 32 `FRAME_BITS`. Below 16 the bit goes into `highWord`, from 16 to 30
into `lowWord`; at 31 the datagram is committed with the new `lowWord`; at 32 nothing is written (R107, the spec's own
decision D7). The rest of the state is as the equalities and the last clauses say (the router's part of the
thirty-second bit has statements of its own). The sections at another `WORD_BITS` than 16 are the model's reading:
DEDUCED, assumption 20. -/
def Obligations.BitPulseAppends : Prop :=
  ∀ (s : State) (bit : Bool) (mark space : Word), s.connected = true → s.cfg.FrameFits →
    (s.bitsReceived.toNat < s.cfg.wordBits →
      exec (.bitPulse bit mark space) s = .next { s with
        bitsReceived := BitVec.ofNat 6 (s.bitsReceived.toNat + 1)
        highWord := BitVec.ofNat 16 (2 * s.highWord.toNat + bit.toNat)
        out := { decResult := some .incomplete } }) ∧
    (s.cfg.wordBits ≤ s.bitsReceived.toNat → s.bitsReceived.toNat + 1 < s.cfg.frameBits →
      exec (.bitPulse bit mark space) s = .next { s with
        bitsReceived := BitVec.ofNat 6 (s.bitsReceived.toNat + 1)
        lowWord := BitVec.ofNat 16 (2 * s.lowWord.toNat + bit.toNat)
        out := { decResult := some .incomplete } }) ∧
    (s.bitsReceived.toNat + 1 = s.cfg.frameBits → ∃ t, exec (.bitPulse bit mark space) s = .next t ∧
      t.bitsReceived.toNat = s.cfg.frameBits ∧
      t.highWord = s.highWord ∧
      t.lowWord = BitVec.ofNat 16 (2 * s.lowWord.toNat + bit.toNat) ∧
      t.datagram = some ⟨s.cfg.sectionOf s.highWord.toNat, s.cfg.sectionOf (2 * s.lowWord.toNat + bit.toNat)⟩ ∧
      (s.cfg.wordBits = 16 → t.datagram = some ⟨t.highWord, t.lowWord⟩) ∧
      t.out.decResult = some .datagramReady ∧
      t.connected = s.connected ∧ t.wdWake = s.wdWake ∧ t.cfg = s.cfg ∧ t.now = s.now ∧ t.inputs = s.inputs) ∧
    (s.bitsReceived.toNat = s.cfg.frameBits →
      exec (.bitPulse bit mark space) s = .next { s with out := { decResult := some .incomplete } })

/-- R107 (the spec's own decision D7): at a count of `FRAME_BITS`, 32, a bit is discarded and nothing is written; and the
count leaves 32 only by a pulse of class Repeat, Start or Noise, which sets it to 0. -/
def Obligations.OverrunBitIsDiscarded : Prop :=
  (∀ (s : State) (bit : Bool) (mark space : Word), s.connected = true → s.bitsReceived.toNat = s.cfg.frameBits →
    exec (.bitPulse bit mark space) s = .next { s with out := { decResult := some .incomplete } }) ∧
  (∀ (s t : State) (i : Instr), s.connected = true → s.bitsReceived.toNat = s.cfg.frameBits →
    exec i s = .next t → t.bitsReceived ≠ s.bitsReceived → i.isBoundary = true ∧ t.bitsReceived = 0#6)

/-- R104 with R122: a pulse from `T_REPEAT` to below `T_START` is a repeat marker, and a repeat marker resets the count
and refreshes the deadline, and leaves everything else. -/
def Obligations.RepeatResetsCountAndRefreshesDeadline : Prop :=
  (∀ (c : Config) (mark space : Word), c.tOne < c.tRepeat → c.tRepeat ≤ mark.toNat + space.toNat →
    mark.toNat + space.toNat < c.tStart →
    decode c (packWord 0b010#3 mark space) = .pulseRepeat mark space) ∧
  ∀ (s : State) (mark space : Word), s.connected = true →
    exec (.pulseRepeat mark space) s = .next { s with
      bitsReceived := 0#6
      repeatDeadline := s.now + s.cfg.repeatWindow
      out := { decResult := some .repeatMarker } }

/-- R105, R106: a pulse from `T_START` to below `T_NOISE` is a start marker, one of `T_NOISE` or more a noise interval;
both reset the count, signal Incomplete and leave everything else, the deadline and both accumulators among it. -/
def Obligations.StartAndNoiseResetCountOnly : Prop :=
  (∀ (c : Config) (mark space : Word), c.tOne < c.tRepeat → c.tRepeat < c.tStart → c.tStart < c.tNoise →
    c.tStart ≤ mark.toNat + space.toNat →
    decode c (packWord 0b010#3 mark space) =
      if mark.toNat + space.toNat < c.tNoise then .pulseStart mark space else .pulseNoise mark space) ∧
  ∀ (s : State) (mark space : Word), s.connected = true →
    exec (.pulseStart mark space) s = .next { s with
      bitsReceived := 0#6, out := { decResult := some .incomplete } } ∧
    exec (.pulseNoise mark space) s = .next { s with
      bitsReceived := 0#6, out := { decResult := some .incomplete } }

/-- R108: before `CONNECT` a pulse of any class changes nothing, raises nothing and shows `dec_result = 0b00`. -/
def Obligations.UnconnectedPulseChangesNothing : Prop :=
  ∀ (s : State) (i : Instr), i.isPulse = true → s.connected = false →
    exec i s = .next { s with out := {} } ∧ Output.decCode {} = 0b00#2

/-- R114: the decoder's transition table, for every count the field may legally hold (31 and 32 are `FRAME_BITS - 1` and
`FRAME_BITS`), with the commit of R101 and the overrun of R107 (D7). The sections at another `WORD_BITS` than 16 are the
model's reading: DEDUCED, assumption 20. -/
def Obligations.DecoderTransitionTable : Prop :=
  ∀ (s t : State) (i : Instr), s.connected = true → s.cfg.FrameFits →
    s.bitsReceived.toNat ≤ s.cfg.frameBits → i.isPulse = true → exec i s = .next t →
    (i.isBoundary = true → t.bitsReceived = 0#6 ∧
      (t.out.decResult = some .repeatMarker ↔ ∃ mark space, i = .pulseRepeat mark space) ∧
      t.out.decResult ≠ some .datagramReady ∧ t.out.decResult ≠ none ∧ t.datagram = s.datagram) ∧
    (i.isBoundary = false →
      t.bitsReceived.toNat = min (s.bitsReceived.toNat + 1) s.cfg.frameBits ∧
      t.datagram = (if s.bitsReceived.toNat + 1 = s.cfg.frameBits then
        some ⟨s.cfg.sectionOf s.highWord.toNat, s.cfg.sectionOf t.lowWord.toNat⟩ else s.datagram) ∧
      t.out.decResult = some (if s.bitsReceived.toNat + 1 = s.cfg.frameBits then .datagramReady else .incomplete))

/-- R26, R59, R101, R121: once connected, the datagram is written only by the bit that takes the count from 31 to 32,
`FRAME_BITS`, both sections at once, in the step that also sets `hasNewDatagram`, refreshes the deadline and raises
`datagram-ready`. The sections at another `WORD_BITS` than 16 are the model's reading: DEDUCED, assumption 20, which
claims nothing outside `Config.FrameFits`. -/
def Obligations.OnlyTheThirtySecondBitWritesTheDatagram : Prop :=
  ∀ (s t : State) (i : Instr), s.connected = true → exec i s = .next t → t.datagram ≠ s.datagram →
    ∃ bit, i.bitOf = some bit ∧ s.bitsReceived.toNat + 1 = s.cfg.frameBits ∧
      t.bitsReceived = BitVec.ofNat 6 s.cfg.frameBits ∧
      t.datagram = some ⟨s.cfg.sectionOf s.highWord.toNat, s.cfg.sectionOf (2 * s.lowWord.toNat + bit.toNat)⟩ ∧
      t.hasNewDatagram = true ∧ t.repeatDeadline = s.now + s.cfg.repeatWindow ∧
      Event.datagramReady ∈ t.out.events

/-- R109, with R101 and R104 to R106: the decoder part of a pulse reads only the count, the accumulators and the class.
Two states that agree on these (and on being connected) agree after it on the count, the accumulators and the result,
whatever their time, buttons, datagram, timers and the rest of the configuration beside the two frame sizes, which are
parameters by assumption 20. -/
def Obligations.DecoderReadsOnlyItsOwnState : Prop :=
  ∀ (s s' t t' : State) (i : Instr), i.isPulse = true →
    s.connected = s'.connected → s.bitsReceived = s'.bitsReceived → s.highWord = s'.highWord →
    s.lowWord = s'.lowWord → s.cfg.frameBits = s'.cfg.frameBits → s.cfg.wordBits = s'.cfg.wordBits →
    exec i s = .next t → exec i s' = .next t' →
    t.bitsReceived = t'.bitsReceived ∧ t.highWord = t'.highWord ∧ t.lowWord = t'.lowWord ∧
      t.out.decResult = t'.out.decResult

/-- R115, first part: from a frame boundary, while fewer than thirty-two (`FRAME_BITS`) bits have come and no boundary pulse,
the datagram stays as it was and the count is the number of bits, whatever other operations come between. `FRAME_BITS`
for the literal 32 is DEDUCED, assumption 20. -/
def Obligations.PartialFrameCommitsNothing : Prop :=
  ∀ s : State, s.connected = true → s.cfg.FrameFits → s.bitsReceived = 0#6 → timesFrom s.now s.inputs →
    (∀ i ∈ s.operations, i.isBoundary = false ∧ i ≠ .reserved) → s.bitsOffered.length < s.cfg.frameBits →
    ∃ t, runSteps s.inputs.length s = .next t ∧
      t.datagram = s.datagram ∧ t.bitsReceived.toNat = s.bitsOffered.length

/-- R115, R51, R52: the closed form of a frame. From a frame boundary, thirty-two (`FRAME_BITS`) bits with no boundary pulse
between them commit the address and the command they spell, first received most significant, whatever the accumulators
held and whatever other operations come between. The sections at another `WORD_BITS` than 16 are the model's reading:
DEDUCED, assumption 20. -/
def Obligations.ThirtyTwoBitsCommitTheirDatagram : Prop :=
  ∀ s : State, s.connected = true → s.cfg.FrameFits → s.bitsReceived = 0#6 → timesFrom s.now s.inputs →
    (∀ i ∈ s.operations, i.isBoundary = false ∧ i ≠ .reserved) → s.bitsOffered.length = s.cfg.frameBits →
    ∃ t, runSteps s.inputs.length s = .next t ∧ t.bitsReceived.toNat = s.cfg.frameBits ∧
      t.datagram = some ⟨BitVec.ofNat 16 (bitsValue (s.bitsOffered.take s.cfg.wordBits)),
        BitVec.ofNat 16 (bitsValue (s.bitsOffered.drop s.cfg.wordBits))⟩

/-- R84 (`FRAME`, the spec's own decision D19) under the default thresholds and sizes: the thirty-three pulses of
`FRAME a c`, at any times in order, leave the datagram (`a`, `c`), by the leader's reset of R105 and the commit of R101
and R115, and the received flag set, by R121, from any connected state. -/
def Obligations.FrameShorthandCommits : Prop :=
  ∀ (s : State) (a c : Word) (times : List Nat), s.connected = true →
    s.cfg.tOne = 1600 → s.cfg.tRepeat = 2700 → s.cfg.tStart = 12500 → s.cfg.tNoise = 14500 →
    s.cfg.frameBits = 32 → s.cfg.wordBits = 16 → times.length = 33 →
    s.inputs = List.zipWith Input.mk times (frameWords a c) →
    timesFrom s.now s.inputs →
    ∃ t, runSteps 33 s = .next t ∧ t.datagram = some ⟨a, c⟩ ∧ t.hasNewDatagram = true ∧
      t.bitsReceived = 32#6

/-! ### The router -/

/-- R124, R130, with the commit of R101 and the flag, the deadline and the event of R121: a datagram of another address is
committed, marked received and refreshes the deadline, and raises `datagram-ready` alone; the button is untouched. The
sections at another `WORD_BITS` than 16 are the model's reading: DEDUCED, assumption 20. -/
def Obligations.ForeignDatagramLeavesTheButton : Prop :=
  ∀ (s : State) (bit : Bool) (mark space : Word), s.connected = true → s.cfg.FrameFits →
    s.bitsReceived.toNat + 1 = s.cfg.frameBits → s.cfg.sectionOf s.highWord.toNat ≠ s.cfg.targetAddress →
    exec (.bitPulse bit mark space) s = .next { s with
      bitsReceived := BitVec.ofNat 6 s.cfg.frameBits
      lowWord := BitVec.ofNat 16 (2 * s.lowWord.toNat + bit.toNat)
      datagram := some ⟨s.cfg.sectionOf s.highWord.toNat, s.cfg.sectionOf (2 * s.lowWord.toNat + bit.toNat)⟩
      hasNewDatagram := true
      repeatDeadline := s.now + s.cfg.repeatWindow
      out := { decResult := some .datagramReady, events := [.datagramReady] } }

/-- R126, with the commit of R101 and the flag, the deadline and the event of R121: a datagram of the target address with
the command already held raises no button event. The sections at another `WORD_BITS` than 16 are the model's reading:
DEDUCED, assumption 20. -/
def Obligations.SameCommandRaisesNothing : Prop :=
  ∀ (s : State) (bit : Bool) (mark space : Word), s.connected = true → s.cfg.FrameFits →
    s.bitsReceived.toNat + 1 = s.cfg.frameBits → s.cfg.sectionOf s.highWord.toNat = s.cfg.targetAddress →
    s.activeCommand = some (s.cfg.sectionOf (2 * s.lowWord.toNat + bit.toNat)) →
    exec (.bitPulse bit mark space) s = .next { s with
      bitsReceived := BitVec.ofNat 6 s.cfg.frameBits
      lowWord := BitVec.ofNat 16 (2 * s.lowWord.toNat + bit.toNat)
      datagram := some ⟨s.cfg.sectionOf s.highWord.toNat, s.cfg.sectionOf (2 * s.lowWord.toNat + bit.toNat)⟩
      hasNewDatagram := true
      repeatDeadline := s.now + s.cfg.repeatWindow
      out := { decResult := some .datagramReady, events := [.datagramReady] } }

/-- R121, R124, R125, R127, R129, with the commit of R101: a datagram of the target address with another command than the
one held raises `released` for the old command, if there is one, then `pressed` for the new one, the whole command section.
The place of `datagram-ready` before both is the spec's own decision D13. The sections at another `WORD_BITS` than 16 are the model's
reading: DEDUCED, assumption 20. -/
def Obligations.CommandChangeReleasesThenPresses : Prop :=
  ∀ (s : State) (bit : Bool) (mark space : Word), s.connected = true → s.cfg.FrameFits →
    s.bitsReceived.toNat + 1 = s.cfg.frameBits → s.cfg.sectionOf s.highWord.toNat = s.cfg.targetAddress →
    s.activeCommand ≠ some (s.cfg.sectionOf (2 * s.lowWord.toNat + bit.toNat)) →
    exec (.bitPulse bit mark space) s = .next { s with
      bitsReceived := BitVec.ofNat 6 s.cfg.frameBits
      lowWord := BitVec.ofNat 16 (2 * s.lowWord.toNat + bit.toNat)
      datagram := some ⟨s.cfg.sectionOf s.highWord.toNat, s.cfg.sectionOf (2 * s.lowWord.toNat + bit.toNat)⟩
      hasNewDatagram := true
      activeCommand := some (s.cfg.sectionOf (2 * s.lowWord.toNat + bit.toNat))
      repeatDeadline := s.now + s.cfg.repeatWindow
      out := {
        decResult := some .datagramReady
        events := .datagramReady :: (s.activeCommand.toList.map Event.released ++
          [.pressed (s.cfg.sectionOf (2 * s.lowWord.toNat + bit.toNat))]) } }

/-- The only event lists a step can raise. For a pulse there are four, with the release of another command before the press
(R127, R78, the place of `datagram-ready` by D13); a wake raises at most one release (R140 to R143, R147); nothing else
raises anything (R150 to R155). -/
def Obligations.EventListsOfAStep : Prop :=
  ∀ (s t : State) (i : Instr), exec i s = .next t →
    (i.isPulse = true → t.out.events = [] ∨ t.out.events = [.datagramReady] ∨
      (∃ c, t.out.events = [.datagramReady, .pressed c]) ∨
      (∃ a c, a ≠ c ∧ t.out.events = [.datagramReady, .released a, .pressed c])) ∧
    (i = .wdwake → t.out.events = [] ∨ ∃ c, t.out.events = [.released c]) ∧
    (i.isPulse = false → i ≠ .wdwake → t.out.events = [])

/-- R122, R123, R130: the deadline is written in exactly the steps whose result is DatagramReady or Repeat, and then to
`now + REPEAT_WINDOW`; in every other step it keeps its value. -/
def Obligations.DeadlineFollowsTheResult : Prop :=
  ∀ (s t : State) (i : Instr), exec i s = .next t →
    ((t.out.decResult = some .datagramReady ∨ t.out.decResult = some .repeatMarker) →
      t.repeatDeadline = s.now + s.cfg.repeatWindow) ∧
    (t.out.decResult ≠ some .datagramReady → t.out.decResult ≠ some .repeatMarker →
      t.repeatDeadline = s.repeatDeadline)

/-- R128 (a), (b), (c): along any run, from any state that meets the invariants, `pressed` and `released` alternate, each
`released` carries the command of the `pressed` before it, and `activeCommand` is the button that the events leave
held. The invariants are those of R41, (iv) as assumption 18 reads it; a step with nothing offered is a `NOP` (assumption
2). -/
def Obligations.ButtonEventsAlternate : Prop :=
  ∀ (k : Nat) (s t : State), s.Inv → runSteps k s = .next t →
    heldAfter s.activeCommand (eventsOfRun k s) = some t.activeCommand

/-! ### The watchdog -/

/-- R141: the code `0b011` is `WDWAKE`, and its Idle branch. The deadline is not read. -/
def Obligations.IdleWakeSleepsLong : Prop :=
  (∀ (c : Config) (w : OpWord), opField w = 0b011#3 → decode c w = .wdwake) ∧
  ∀ s : State, s.connected = true → s.wdWake ≤ s.now → s.activeCommand = none →
    exec .wdwake s = .next { s with wdWake := s.now + s.cfg.wdIdleSleep, out := {} }

/-- R142: Tracking, deadline strictly passed (decisions D10, D22 of the spec): one `released`, back to Idle, the Idle
sleep. -/
def Obligations.ExpiredWakeReleases : Prop :=
  (∀ (c : Config) (w : OpWord), opField w = 0b011#3 → decode c w = .wdwake) ∧
  ∀ (s : State) (c : Word), s.connected = true → s.wdWake ≤ s.now → s.activeCommand = some c →
    s.repeatDeadline < s.now →
    exec .wdwake s = .next { s with
      activeCommand := none
      wdWake := s.now + s.cfg.wdIdleSleep
      out := { events := [.released c] } }

/-- R143: Tracking, deadline not passed, `now = repeatDeadline` included: sleep for the repeat window. -/
def Obligations.AliveWakeSleepsAgain : Prop :=
  (∀ (c : Config) (w : OpWord), opField w = 0b011#3 → decode c w = .wdwake) ∧
  ∀ (s : State) (c : Word), s.connected = true → s.wdWake ≤ s.now → s.activeCommand = some c →
    s.now ≤ s.repeatDeadline →
    exec .wdwake s = .next { s with wdWake := s.now + s.cfg.wdTrackSleep, out := {} }

/-- R147: a wake before `CONNECT` or before `wdWake` changes nothing and raises nothing. -/
def Obligations.EarlyOrUnconnectedWakeDoesNothing : Prop :=
  ∀ s : State, s.connected = false ∨ s.now < s.wdWake → exec .wdwake s = .next { s with out := {} }

/-- R30: the watchdog reads and writes ButtonState and its own timer only. A wake changes nothing but `activeCommand`,
`wdWake` and the outputs, and two states that differ elsewhere (DecoderState, the datagram, the received flag) see
the same wake. -/
def Obligations.WatchdogTouchesOnlyButtonState : Prop :=
  (∀ s t : State, exec .wdwake s = .next t →
    t = { s with activeCommand := t.activeCommand, wdWake := t.wdWake, out := t.out }) ∧
  (∀ s s' t t' : State, s.connected = s'.connected → s.activeCommand = s'.activeCommand →
    s.repeatDeadline = s'.repeatDeadline → s.wdWake = s'.wdWake → s.now = s'.now → s.cfg = s'.cfg →
    exec .wdwake s = .next t → exec .wdwake s' = .next t' →
    t.activeCommand = t'.activeCommand ∧ t.wdWake = t'.wdWake ∧ t.out = t'.out)

/-- R148: who moves the watchdog's mode. Once connected, Idle becomes Tracking only by a pulse that presses a button, and
Tracking becomes Idle only by a wake past the deadline (R142, D10) that releases it. -/
def Obligations.ModeTransitions : Prop :=
  ∀ (s t : State) (i : Instr), s.connected = true → exec i s = .next t →
    (s.mode = .idle → t.mode = .tracking →
      i.isPulse = true ∧ ∃ c, t.activeCommand = some c ∧ Event.pressed c ∈ t.out.events) ∧
    (s.mode = .tracking → t.mode = .idle →
      i = .wdwake ∧ s.repeatDeadline < s.now ∧
      ∃ c, s.activeCommand = some c ∧ t.out.events = [.released c])

/-- R145: a `released` is raised only for the command held (so for one command only), in the one step that also stops
holding it, and once in that step. -/
def Obligations.OneReleasePerPress : Prop :=
  ∀ (s t : State) (i : Instr) (c : Word), exec i s = .next t → Event.released c ∈ t.out.events →
    s.activeCommand = some c ∧ t.activeCommand ≠ some c ∧
      t.out.events.count (.released c) = 1

/-- R144 under R146: the corrected release bound. If the deadline has just been refreshed and a button is held, nothing
refreshes it again, wakes come within the slack, and time goes past the bound, then one of the steps is the release,
strictly after the deadline and within the bound. The form of the obligation and of the invariants is the model's
reading: DEDUCED, assumptions 17 and 18. -/
def Obligations.ReleaseComesWithinTheBound : Prop :=
  ∀ (k : Nat) (s t : State) (c : Word) (slack : Nat), s.Inv → s.SleepInv →
    s.activeCommand = some c → s.repeatDeadline = s.now + s.cfg.repeatWindow →
    s.cfg.wdSlack = some slack → onSchedule slack k s → noRefresh k s → runSteps k s = .next t →
    s.repeatDeadline + s.cfg.releaseLag + slack < t.now →
    ∃ j u v, j < k ∧ runSteps j s = .next u ∧ step u = .next v ∧
      u.activeCommand = some c ∧ v.activeCommand = none ∧ v.out.events = [.released c] ∧
      s.repeatDeadline < v.now ∧ v.now ≤ s.repeatDeadline + s.cfg.releaseLag + slack

/-- R146 with an unbounded slack, R67: under weak fairness of the wake a held button that nothing refreshes is released in
the end, after its deadline; `activeCommand` is never left stale. The form of the obligation and of the invariants is
the model's reading: DEDUCED, assumptions 17 and 18. -/
def Obligations.FairWatchdogReleases : Prop :=
  ∀ (inp : Nat → Input) (st : Nat → State) (c : Word), IsRun inp st → (st 0).Inv →
    (st 0).activeCommand = some c → TimeDiverges inp → WakeFair inp st → NeverRefreshed st →
    ∃ k, (st k).activeCommand = some c ∧ (st (k + 1)).activeCommand = none ∧
      (st (k + 1)).out.events = [.released c] ∧ (st 0).repeatDeadline < (st (k + 1)).now

/-! ### The consumer -/

/-- R150: the code `0b001` is `CONNECT`; the first one creates the state; the accumulators and the deadline
are left as they are. -/
def Obligations.FirstConnectCreatesTheState : Prop :=
  (∀ (c : Config) (w : OpWord), opField w = 0b001#3 → decode c w = .connect) ∧
  ∀ s : State, s.connected = false →
    exec .connect s = .next { s with
      connected := true
      bitsReceived := 0#6
      datagram := none
      hasNewDatagram := false
      activeCommand := none
      wdWake := s.now
      out := {} }

/-- R151: the code `0b001` is `CONNECT`; a second one changes no field, replies nothing and raises nothing. -/
def Obligations.SecondConnectIsNoOp : Prop :=
  (∀ (c : Config) (w : OpWord), opField w = 0b001#3 → decode c w = .connect) ∧
  ∀ s : State, s.connected = true → exec .connect s = .next { s with out := {} }

/-- R152, R61: the code `0b100` is `POLLRX`; it replies the flag and clears it in one step, so a second poll replies 0. -/
def Obligations.PollTakesAndClears : Prop :=
  (∀ (c : Config) (w : OpWord), opField w = 0b100#3 → decode c w = .pollrx) ∧
  ∀ s : State, ∃ t, exec .pollrx s = .next t ∧
    t = { s with hasNewDatagram := false, out := { reply := some (.flag s.hasNewDatagram) } } ∧
    t.out.qFlag = some s.hasNewDatagram ∧
    exec .pollrx t = .next { s with hasNewDatagram := false, out := { reply := some (.flag false) } }

/-- R153: the code `0b101` is `GETCMD`; it replies the command section of the latest datagram, or none before
the first; it changes nothing. -/
def Obligations.GetCommandReadsTheDatagram : Prop :=
  (∀ (c : Config) (w : OpWord), opField w = 0b101#3 → decode c w = .getcmd) ∧
  ∀ s : State,
    (∀ d, s.datagram = some d →
      exec .getcmd s = .next { s with out := { reply := some (.command (some d.command)) } }) ∧
    (s.datagram = none → exec .getcmd s = .next { s with out := { reply := some (.command none) } })

/-- R154: the code `0b110` is `GETDGRAM`; it replies both sections of the latest datagram, or none before
the first; it changes nothing. -/
def Obligations.GetDatagramReadsBothSections : Prop :=
  (∀ (c : Config) (w : OpWord), opField w = 0b110#3 → decode c w = .getdgram) ∧
  ∀ s : State,
    (∀ d, s.datagram = some d →
      exec .getdgram s = .next { s with out := { reply := some (.datagram (some ⟨d.address, d.command⟩)) } }) ∧
    (s.datagram = none → exec .getdgram s = .next { s with out := { reply := some (.datagram none) } })

/-- R155: the code `0b000` is `NOP`, whatever stands in `W[31:0]`; it changes no field, replies nothing and
raises nothing. -/
def Obligations.NopChangesNothing : Prop :=
  (∀ (c : Config) (w : OpWord), opField w = 0b000#3 → decode c w = .nop) ∧
  ∀ s : State, exec .nop s = .next { s with out := {} }

/-- R157: the queries do not test `connected`; before `CONNECT`, in a reachable state, they reply 0, none and none. -/
def Obligations.QueriesBeforeConnect : Prop :=
  ∀ s : State, s.Inv → s.connected = false →
    exec .pollrx s = .next { s with out := { reply := some (.flag false) } } ∧
    exec .getcmd s = .next { s with out := { reply := some (.command none) } } ∧
    exec .getdgram s = .next { s with out := { reply := some (.datagram none) } }

/-- R80 (a), R156: the code `0b111` is reserved and is refused by name, in every state. -/
def Obligations.ReservedCodeIsRefused : Prop :=
  (∀ (c : Config) (w : OpWord), opField w = 0b111#3 → decode c w = .reserved) ∧
  ∀ s : State, exec .reserved s = .refused .reservedOperation

/-! ### The machine -/

/-- R7, R82: a step takes the pair offered next, makes its time the step's `now`, and executes the operation its word
decodes to. That the run and the time stand in State is the model's choice (assumptions 1 and 3). -/
def Obligations.StepRunsTheOfferedOperation : Prop :=
  ∀ (s : State) (i : Input) (rest : List Input), s.inputs = i :: rest → s.now ≤ i.now →
    step s = exec (decode s.cfg i.word) { s with now := i.now, inputs := rest }

/-- R207: a run whose time decreases is refused by name. With nothing offered a step is a `NOP` at an unchanged time
(the model's choice, DESIGN CHOICE of assumption 2, after R155). -/
def Obligations.TimeMustNotRunBackwards : Prop :=
  (∀ (s : State) (i : Input) (rest : List Input), s.inputs = i :: rest → i.now < s.now →
    step s = .refused .timeRanBackwards) ∧
  (∀ s : State, s.inputs = [] → step s = .next { s with out := {} })

/-- R170, R80, R207: the block never stops. A step has a next state exactly when the pair offered, if any, does not run
back in time and does not hold the reserved code. That a step with nothing offered has one is the model's choice
(DESIGN CHOICE of assumption 2, after R155). -/
def Obligations.EveryOfferedStepCompletes : Prop :=
  ∀ s : State, (∃ t, step s = .next t) ↔
    ∀ i rest, s.inputs = i :: rest → s.now ≤ i.now ∧ i.word.toNat / 2 ^ 32 ≠ 7

/-- R36, R181, R41 (v), (vi): no step writes the configuration, undoes `CONNECT`, or forgets a datagram once connected;
and time does not decrease: R207 and D3 as the model holds them, in the field `now` with its refusal (DESIGN CHOICE of
assumption 3), the step with nothing offered at an unchanged time (assumption 2). -/
def Obligations.NothingIsUndone : Prop :=
  ∀ s t : State, step s = .next t →
    t.cfg = s.cfg ∧ s.now ≤ t.now ∧ (s.connected = true → t.connected = true) ∧
      (s.connected = true → s.datagram ≠ none → t.datagram ≠ none)

/-- R41 (i) to (iv): every step keeps the reachable-state invariants. Where the deadline lies is how the model reads the
words "has been written" of (iv): DEDUCED, assumption 18; `FRAME_BITS` for the 32 of (i) is assumption 20. -/
def Obligations.StepKeepsTheInvariants : Prop :=
  ∀ s t : State, s.Inv → step s = .next t → t.Inv

/-- R41, and the sleep bounds of R144: the invariants hold right after reset, under every configuration. They are about
connected or held states where they speak of `repeatDeadline` or `wdWake` (assumption 18). -/
def Obligations.ResetMeetsTheInvariants : Prop :=
  ∀ c : Config, (State.powerUp c).Inv ∧ (State.powerUp c).SleepInv

/-- The argument of R144: every step keeps the bounds on the pending sleep, given those on the deadline (assumption 18). -/
def Obligations.StepKeepsTheSleepBounds : Prop :=
  ∀ s t : State, s.Inv → s.SleepInv → step s = .next t → t.SleepInv

/-- R200 to R202: what reset leaves. The values R200 gives, under the configuration in force and with no event; hardware
reset of a running block is the same state under its own configuration (R201). That reset keeps the configuration is the
model's choice (assumption 15). The last clause equates whole states, so it holds of fields that R200 leaves unspecified
or does not name as well, `highWord`, `lowWord`, `repeatDeadline` and `wdWake` (assumption 6), time, run and output
(assumptions 1, 3, 4, 15): both sides hold the model's choice there, and the clause gives no such field a value. -/
def Obligations.ResetLeavesTheBlockUnconnected : Prop :=
  ∀ s : State, (hardwareReset s).cfg = s.cfg ∧ (hardwareReset s).connected = false ∧
    (hardwareReset s).bitsReceived = 0#6 ∧ (hardwareReset s).datagram = none ∧
    (hardwareReset s).hasNewDatagram = false ∧ (hardwareReset s).activeCommand = none ∧
    (hardwareReset s).out.events = [] ∧ State.reset = hardwareReset State.reset

/-- R178: two operations offered at the same instant may be taken in either order, and the order shows. With a button held
past its deadline, a wake and the last bit of a datagram of the same button: wake first, the button is released and
pressed again; bit first, it stays held. The open order is the spec's own decision D14; the wake times rest on R142
and R143 with decisions D10, D11, D22, the commit on R101, the deadline on R121, the button events on R125 and R126,
their order on D13. The sections at another `WORD_BITS` than 16 are the model's reading: DEDUCED, assumption 20. -/
def Obligations.ArbitrationOrderShows : Prop :=
  ∀ (s : State) (bit : Bool) (mark space : Word) (c : Word), s.connected = true → s.cfg.FrameFits →
    s.bitsReceived.toNat + 1 = s.cfg.frameBits → s.cfg.sectionOf s.highWord.toNat = s.cfg.targetAddress →
    c = s.cfg.sectionOf (2 * s.lowWord.toNat + bit.toNat) → s.activeCommand = some c →
    s.wdWake ≤ s.now → s.repeatDeadline < s.now →
    (∃ u t, exec .wdwake s = .next u ∧ exec (.bitPulse bit mark space) u = .next t ∧
      u.out.events = [.released c] ∧ t.out.events = [.datagramReady, .pressed c] ∧
      t.activeCommand = some c ∧ t.repeatDeadline = s.now + s.cfg.repeatWindow ∧
      t.wdWake = s.now + s.cfg.wdIdleSleep) ∧
    (∃ u t, exec (.bitPulse bit mark space) s = .next u ∧ exec .wdwake u = .next t ∧
      u.out.events = [.datagramReady] ∧ t.out.events = [] ∧
      t.activeCommand = some c ∧ t.repeatDeadline = s.now + s.cfg.repeatWindow ∧
      t.wdWake = s.now + s.cfg.wdTrackSleep)

/-- R115 (in brackets), R148, R154: frames of the consumer's operations and of pulses. The queries, `NOP`, the wake and a
second `CONNECT` write no DecoderState and no datagram and no deadline; a pulse writes neither `connected` nor
`wdWake`; a query or a `NOP` writes no ButtonState; and no operation but the step's own taking of its input changes the
time, the run or the configuration, which stand in State by assumptions 1, 3 and 5. -/
def Obligations.OperationFrames : Prop :=
  ∀ (s t : State) (i : Instr), exec i s = .next t →
    (t.now = s.now ∧ t.inputs = s.inputs ∧ t.cfg = s.cfg) ∧
    (i.isPulse = false → s.connected = true →
      t.bitsReceived = s.bitsReceived ∧ t.highWord = s.highWord ∧ t.lowWord = s.lowWord ∧
      t.datagram = s.datagram ∧ t.repeatDeadline = s.repeatDeadline) ∧
    (i.isPulse = true → t.connected = s.connected ∧ t.wdWake = s.wdWake) ∧
    (i = .nop ∨ i = .pollrx ∨ i = .getcmd ∨ i = .getdgram →
      t.connected = s.connected ∧ t.bitsReceived = s.bitsReceived ∧ t.highWord = s.highWord ∧
      t.lowWord = s.lowWord ∧ t.datagram = s.datagram ∧ t.activeCommand = s.activeCommand ∧
      t.repeatDeadline = s.repeatDeadline ∧ t.wdWake = s.wdWake ∧
      (i ≠ .pollrx → t.hasNewDatagram = s.hasNewDatagram))

/-- R6: the parameters in force after reset are the defaults, and they meet the premises of R6, R100 and R203 and the
model's `FrameFits` (assumption 20). The two open parameters are not spoken of. -/
def Obligations.ResetHoldsTheDefaults : Prop :=
  State.reset.cfg.tOne = 1600 ∧ State.reset.cfg.tRepeat = 2700 ∧ State.reset.cfg.tStart = 12500 ∧
    State.reset.cfg.tNoise = 14500 ∧ State.reset.cfg.frameBits = 32 ∧ State.reset.cfg.wordBits = 16 ∧
    State.reset.cfg.repeatWindow = 120 ∧ State.reset.cfg.wdTrackSleep = 120 ∧ State.reset.cfg.wdIdleSleep = 240 ∧
    State.reset.cfg.Ordered ∧ State.reset.cfg.FrameFits
end

