-- ==== Sys2Proof/Laws/Classes.lean ====
section
/-! SUPPORT. The class functions of an operation on each constructor, and how they fit together. -/

namespace Sys2Proof

@[simp] theorem Instr.bitOf_nop : Instr.nop.bitOf = none := rfl

@[simp] theorem Instr.isBoundary_nop : Instr.nop.isBoundary = false := rfl

@[simp] theorem Instr.isPulse_nop : Instr.nop.isPulse = false := rfl

@[simp] theorem Instr.bitOf_connect : Instr.connect.bitOf = none := rfl

@[simp] theorem Instr.isBoundary_connect : Instr.connect.isBoundary = false := rfl

@[simp] theorem Instr.isPulse_connect : Instr.connect.isPulse = false := rfl

@[simp] theorem Instr.bitOf_pulseZero (mark space : Word) : (Instr.pulseZero mark space).bitOf = some false := rfl

@[simp] theorem Instr.isBoundary_pulseZero (mark space : Word) : (Instr.pulseZero mark space).isBoundary = false := rfl

@[simp] theorem Instr.isPulse_pulseZero (mark space : Word) : (Instr.pulseZero mark space).isPulse = true := rfl

@[simp] theorem Instr.bitOf_pulseOne (mark space : Word) : (Instr.pulseOne mark space).bitOf = some true := rfl

@[simp] theorem Instr.isBoundary_pulseOne (mark space : Word) : (Instr.pulseOne mark space).isBoundary = false := rfl

@[simp] theorem Instr.isPulse_pulseOne (mark space : Word) : (Instr.pulseOne mark space).isPulse = true := rfl

@[simp] theorem Instr.bitOf_pulseRepeat (mark space : Word) : (Instr.pulseRepeat mark space).bitOf = none := rfl

@[simp] theorem Instr.isBoundary_pulseRepeat (mark space : Word) : (Instr.pulseRepeat mark space).isBoundary = true := rfl

@[simp] theorem Instr.isPulse_pulseRepeat (mark space : Word) : (Instr.pulseRepeat mark space).isPulse = true := rfl

@[simp] theorem Instr.bitOf_pulseStart (mark space : Word) : (Instr.pulseStart mark space).bitOf = none := rfl

@[simp] theorem Instr.isBoundary_pulseStart (mark space : Word) : (Instr.pulseStart mark space).isBoundary = true := rfl

@[simp] theorem Instr.isPulse_pulseStart (mark space : Word) : (Instr.pulseStart mark space).isPulse = true := rfl

@[simp] theorem Instr.bitOf_pulseNoise (mark space : Word) : (Instr.pulseNoise mark space).bitOf = none := rfl

@[simp] theorem Instr.isBoundary_pulseNoise (mark space : Word) : (Instr.pulseNoise mark space).isBoundary = true := rfl

@[simp] theorem Instr.isPulse_pulseNoise (mark space : Word) : (Instr.pulseNoise mark space).isPulse = true := rfl

@[simp] theorem Instr.bitOf_wdwake : Instr.wdwake.bitOf = none := rfl

@[simp] theorem Instr.isBoundary_wdwake : Instr.wdwake.isBoundary = false := rfl

@[simp] theorem Instr.isPulse_wdwake : Instr.wdwake.isPulse = false := rfl

@[simp] theorem Instr.bitOf_pollrx : Instr.pollrx.bitOf = none := rfl

@[simp] theorem Instr.isBoundary_pollrx : Instr.pollrx.isBoundary = false := rfl

@[simp] theorem Instr.isPulse_pollrx : Instr.pollrx.isPulse = false := rfl

@[simp] theorem Instr.bitOf_getcmd : Instr.getcmd.bitOf = none := rfl

@[simp] theorem Instr.isBoundary_getcmd : Instr.getcmd.isBoundary = false := rfl

@[simp] theorem Instr.isPulse_getcmd : Instr.getcmd.isPulse = false := rfl

@[simp] theorem Instr.bitOf_getdgram : Instr.getdgram.bitOf = none := rfl

@[simp] theorem Instr.isBoundary_getdgram : Instr.getdgram.isBoundary = false := rfl

@[simp] theorem Instr.isPulse_getdgram : Instr.getdgram.isPulse = false := rfl

@[simp] theorem Instr.bitOf_reserved : Instr.reserved.bitOf = none := rfl

@[simp] theorem Instr.isBoundary_reserved : Instr.reserved.isBoundary = false := rfl

@[simp] theorem Instr.isPulse_reserved : Instr.reserved.isPulse = false := rfl

/-- An operation that carries a bit is a pulse and ends no frame. -/
theorem Instr.isPulse_of_bitOf {i : Instr} {bit : Bool} (h : i.bitOf = some bit) :
    i.isPulse = true ∧ i.isBoundary = false := by
  cases i <;> simp_all

/-- A pulse carries a bit or ends a frame. -/
theorem Instr.isPulse_iff (i : Instr) : i.isPulse = (i.bitOf.isSome || i.isBoundary) := by
  cases i <;> rfl

end Sys2Proof
end

