-- ==== Sys2Proof/Laws/Encoding.lean ====
section
/-! SUPPORT. The fields of a packed word, the field packing of a word, and the interval and the class as numbers. -/

namespace Sys2Proof

@[simp] theorem opField_packWord (op : BitVec 3) (mark space : Word) :
    opField (packWord op mark space) = op := by
  unfold opField packWord
  ext i hi
  simp only [BitVec.getElem_extractLsb', BitVec.getLsbD_append]
  simp [BitVec.getElem_eq_testBit_toNat, BitVec.getLsbD, show ¬ 32 + i < 16 by omega,
    show ¬ 32 + i - 16 < 16 by omega, show 32 + i - 16 - 16 = i by omega]

@[simp] theorem markField_packWord (op : BitVec 3) (mark space : Word) :
    markField (packWord op mark space) = mark := by
  unfold markField packWord
  ext i hi
  simp only [BitVec.getElem_extractLsb', BitVec.getLsbD_append]
  simp [BitVec.getElem_eq_testBit_toNat, BitVec.getLsbD, show ¬ 16 + i < 16 by omega, hi]

@[simp] theorem spaceField_packWord (op : BitVec 3) (mark space : Word) :
    spaceField (packWord op mark space) = space := by
  unfold spaceField packWord
  ext i hi
  simp only [BitVec.getElem_extractLsb', BitVec.getLsbD_append]
  simp [BitVec.getElem_eq_testBit_toNat, BitVec.getLsbD, hi]

/-- A word is its three fields. -/
theorem packWord_fields (w : OpWord) : packWord (opField w) (markField w) (spaceField w) = w := by
  unfold opField markField spaceField packWord
  ext i hi
  simp only [BitVec.getElem_eq_testBit_toNat]
  simp only [← BitVec.getLsbD.eq_1, BitVec.getLsbD_append, BitVec.getLsbD_extractLsb']
  by_cases h1 : i < 16
  · simp [h1]
  · by_cases h2 : i - 16 < 16
    · simp [h1, h2, show 16 + (i - 16) = i by omega]
    · simp [h1, h2, show 32 + (i - 16 - 16) = i by omega, show i - 16 - 16 < 3 by omega]

/-- The decoder on a word given by its fields. -/
theorem decode_packWord (c : Config) (op : BitVec 3) (mark space : Word) :
    decode c (packWord op mark space) = decodeFields c op mark space := by
  rw [decode, opField_packWord, markField_packWord, spaceField_packWord]

/-- The operation code as a number is the word's top three bits. -/
theorem opField_toNat (w : OpWord) : (opField w).toNat = w.toNat / 2 ^ 32 := by
  have := w.isLt
  simp only [opField, BitVec.extractLsb'_toNat, Nat.shiftRight_eq_div_pow]
  omega

theorem markField_toNat (w : OpWord) : (markField w).toNat = w.toNat / 2 ^ 16 % 2 ^ 16 := by
  simp only [markField, BitVec.extractLsb'_toNat, Nat.shiftRight_eq_div_pow]

theorem spaceField_toNat (w : OpWord) : (spaceField w).toNat = w.toNat % 2 ^ 16 := by
  simp only [spaceField, BitVec.extractLsb'_toNat, Nat.shiftRight_zero]

end Sys2Proof

namespace Sys2Proof.Machine

open Sys2Proof

/-- The interval is the exact sum (R72): 17 bits hold it without a wrap. -/
theorem interval_toNat (mark space : Word) :
    (interval mark space).toNat = mark.toNat + space.toNat := by
  simp only [interval, BitVec.toNat_add, BitVec.toNat_setWidth]
  omega

/-- The class is one of five, each with the range of R73 that the comparisons tried before it leave. -/
theorem classify_cases (c : Config) (i : Nat) :
    (classify c i = .zero ∧ i < c.tOne) ∨
    (classify c i = .one ∧ c.tOne ≤ i ∧ i < c.tRepeat) ∨
    (classify c i = .repeatMarker ∧ c.tOne ≤ i ∧ c.tRepeat ≤ i ∧ i < c.tStart) ∨
    (classify c i = .start ∧ c.tOne ≤ i ∧ c.tRepeat ≤ i ∧ c.tStart ≤ i ∧ i < c.tNoise) ∨
    (classify c i = .noise ∧ c.tOne ≤ i ∧ c.tRepeat ≤ i ∧ c.tStart ≤ i ∧ c.tNoise ≤ i) := by
  unfold classify
  split_ifs <;> simp_all

end Sys2Proof.Machine
end

