-- ==== Sys2Proof/Laws/State.lean ====
section
/-! SUPPORT. One lemma per field per update of the state, so that no later proof unfolds a record update. -/

namespace Sys2Proof.Machine

open Sys2Proof

/-! ### markConnected -/

@[simp] theorem State.markConnected_connected (s : State) :
    s.markConnected.connected = true := rfl

@[simp] theorem State.markConnected_bitsReceived (s : State) :
    s.markConnected.bitsReceived = s.bitsReceived := rfl

@[simp] theorem State.markConnected_highWord (s : State) :
    s.markConnected.highWord = s.highWord := rfl

@[simp] theorem State.markConnected_lowWord (s : State) :
    s.markConnected.lowWord = s.lowWord := rfl

@[simp] theorem State.markConnected_datagram (s : State) :
    s.markConnected.datagram = s.datagram := rfl

@[simp] theorem State.markConnected_hasNewDatagram (s : State) :
    s.markConnected.hasNewDatagram = s.hasNewDatagram := rfl

@[simp] theorem State.markConnected_activeCommand (s : State) :
    s.markConnected.activeCommand = s.activeCommand := rfl

@[simp] theorem State.markConnected_repeatDeadline (s : State) :
    s.markConnected.repeatDeadline = s.repeatDeadline := rfl

@[simp] theorem State.markConnected_wdWake (s : State) :
    s.markConnected.wdWake = s.wdWake := rfl

@[simp] theorem State.markConnected_cfg (s : State) :
    s.markConnected.cfg = s.cfg := rfl

@[simp] theorem State.markConnected_now (s : State) :
    s.markConnected.now = s.now := rfl

@[simp] theorem State.markConnected_inputs (s : State) :
    s.markConnected.inputs = s.inputs := rfl

@[simp] theorem State.markConnected_out (s : State) :
    s.markConnected.out = s.out := rfl

/-! ### setReceived -/

@[simp] theorem State.setReceived_connected (s : State) (b : Bool) :
    (s.setReceived b).connected = s.connected := rfl

@[simp] theorem State.setReceived_bitsReceived (s : State) (b : Bool) :
    (s.setReceived b).bitsReceived = s.bitsReceived := rfl

@[simp] theorem State.setReceived_highWord (s : State) (b : Bool) :
    (s.setReceived b).highWord = s.highWord := rfl

@[simp] theorem State.setReceived_lowWord (s : State) (b : Bool) :
    (s.setReceived b).lowWord = s.lowWord := rfl

@[simp] theorem State.setReceived_datagram (s : State) (b : Bool) :
    (s.setReceived b).datagram = s.datagram := rfl

@[simp] theorem State.setReceived_hasNewDatagram (s : State) (b : Bool) :
    (s.setReceived b).hasNewDatagram = b := rfl

@[simp] theorem State.setReceived_activeCommand (s : State) (b : Bool) :
    (s.setReceived b).activeCommand = s.activeCommand := rfl

@[simp] theorem State.setReceived_repeatDeadline (s : State) (b : Bool) :
    (s.setReceived b).repeatDeadline = s.repeatDeadline := rfl

@[simp] theorem State.setReceived_wdWake (s : State) (b : Bool) :
    (s.setReceived b).wdWake = s.wdWake := rfl

@[simp] theorem State.setReceived_cfg (s : State) (b : Bool) :
    (s.setReceived b).cfg = s.cfg := rfl

@[simp] theorem State.setReceived_now (s : State) (b : Bool) :
    (s.setReceived b).now = s.now := rfl

@[simp] theorem State.setReceived_inputs (s : State) (b : Bool) :
    (s.setReceived b).inputs = s.inputs := rfl

@[simp] theorem State.setReceived_out (s : State) (b : Bool) :
    (s.setReceived b).out = s.out := rfl

/-! ### clearOut -/

@[simp] theorem State.clearOut_connected (s : State) :
    s.clearOut.connected = s.connected := rfl

@[simp] theorem State.clearOut_bitsReceived (s : State) :
    s.clearOut.bitsReceived = s.bitsReceived := rfl

@[simp] theorem State.clearOut_highWord (s : State) :
    s.clearOut.highWord = s.highWord := rfl

@[simp] theorem State.clearOut_lowWord (s : State) :
    s.clearOut.lowWord = s.lowWord := rfl

@[simp] theorem State.clearOut_datagram (s : State) :
    s.clearOut.datagram = s.datagram := rfl

@[simp] theorem State.clearOut_hasNewDatagram (s : State) :
    s.clearOut.hasNewDatagram = s.hasNewDatagram := rfl

@[simp] theorem State.clearOut_activeCommand (s : State) :
    s.clearOut.activeCommand = s.activeCommand := rfl

@[simp] theorem State.clearOut_repeatDeadline (s : State) :
    s.clearOut.repeatDeadline = s.repeatDeadline := rfl

@[simp] theorem State.clearOut_wdWake (s : State) :
    s.clearOut.wdWake = s.wdWake := rfl

@[simp] theorem State.clearOut_cfg (s : State) :
    s.clearOut.cfg = s.cfg := rfl

@[simp] theorem State.clearOut_now (s : State) :
    s.clearOut.now = s.now := rfl

@[simp] theorem State.clearOut_inputs (s : State) :
    s.clearOut.inputs = s.inputs := rfl

@[simp] theorem State.clearOut_out (s : State) :
    s.clearOut.out = {} := rfl

/-! ### emit -/

@[simp] theorem State.emit_connected (s : State) (e : Event) :
    (s.emit e).connected = s.connected := rfl

@[simp] theorem State.emit_bitsReceived (s : State) (e : Event) :
    (s.emit e).bitsReceived = s.bitsReceived := rfl

@[simp] theorem State.emit_highWord (s : State) (e : Event) :
    (s.emit e).highWord = s.highWord := rfl

@[simp] theorem State.emit_lowWord (s : State) (e : Event) :
    (s.emit e).lowWord = s.lowWord := rfl

@[simp] theorem State.emit_datagram (s : State) (e : Event) :
    (s.emit e).datagram = s.datagram := rfl

@[simp] theorem State.emit_hasNewDatagram (s : State) (e : Event) :
    (s.emit e).hasNewDatagram = s.hasNewDatagram := rfl

@[simp] theorem State.emit_activeCommand (s : State) (e : Event) :
    (s.emit e).activeCommand = s.activeCommand := rfl

@[simp] theorem State.emit_repeatDeadline (s : State) (e : Event) :
    (s.emit e).repeatDeadline = s.repeatDeadline := rfl

@[simp] theorem State.emit_wdWake (s : State) (e : Event) :
    (s.emit e).wdWake = s.wdWake := rfl

@[simp] theorem State.emit_cfg (s : State) (e : Event) :
    (s.emit e).cfg = s.cfg := rfl

@[simp] theorem State.emit_now (s : State) (e : Event) :
    (s.emit e).now = s.now := rfl

@[simp] theorem State.emit_inputs (s : State) (e : Event) :
    (s.emit e).inputs = s.inputs := rfl

@[simp] theorem State.emit_out (s : State) (e : Event) :
    (s.emit e).out = { s.out with events := s.out.events ++ [e] } := rfl

/-! ### giveReply -/

@[simp] theorem State.giveReply_connected (s : State) (r : Reply) :
    (s.giveReply r).connected = s.connected := rfl

@[simp] theorem State.giveReply_bitsReceived (s : State) (r : Reply) :
    (s.giveReply r).bitsReceived = s.bitsReceived := rfl

@[simp] theorem State.giveReply_highWord (s : State) (r : Reply) :
    (s.giveReply r).highWord = s.highWord := rfl

@[simp] theorem State.giveReply_lowWord (s : State) (r : Reply) :
    (s.giveReply r).lowWord = s.lowWord := rfl

@[simp] theorem State.giveReply_datagram (s : State) (r : Reply) :
    (s.giveReply r).datagram = s.datagram := rfl

@[simp] theorem State.giveReply_hasNewDatagram (s : State) (r : Reply) :
    (s.giveReply r).hasNewDatagram = s.hasNewDatagram := rfl

@[simp] theorem State.giveReply_activeCommand (s : State) (r : Reply) :
    (s.giveReply r).activeCommand = s.activeCommand := rfl

@[simp] theorem State.giveReply_repeatDeadline (s : State) (r : Reply) :
    (s.giveReply r).repeatDeadline = s.repeatDeadline := rfl

@[simp] theorem State.giveReply_wdWake (s : State) (r : Reply) :
    (s.giveReply r).wdWake = s.wdWake := rfl

@[simp] theorem State.giveReply_cfg (s : State) (r : Reply) :
    (s.giveReply r).cfg = s.cfg := rfl

@[simp] theorem State.giveReply_now (s : State) (r : Reply) :
    (s.giveReply r).now = s.now := rfl

@[simp] theorem State.giveReply_inputs (s : State) (r : Reply) :
    (s.giveReply r).inputs = s.inputs := rfl

@[simp] theorem State.giveReply_out (s : State) (r : Reply) :
    (s.giveReply r).out = { s.out with reply := some r } := rfl

/-! ### showResult -/

@[simp] theorem State.showResult_connected (s : State) (r : DecResult) :
    (s.showResult r).connected = s.connected := rfl

@[simp] theorem State.showResult_bitsReceived (s : State) (r : DecResult) :
    (s.showResult r).bitsReceived = s.bitsReceived := rfl

@[simp] theorem State.showResult_highWord (s : State) (r : DecResult) :
    (s.showResult r).highWord = s.highWord := rfl

@[simp] theorem State.showResult_lowWord (s : State) (r : DecResult) :
    (s.showResult r).lowWord = s.lowWord := rfl

@[simp] theorem State.showResult_datagram (s : State) (r : DecResult) :
    (s.showResult r).datagram = s.datagram := rfl

@[simp] theorem State.showResult_hasNewDatagram (s : State) (r : DecResult) :
    (s.showResult r).hasNewDatagram = s.hasNewDatagram := rfl

@[simp] theorem State.showResult_activeCommand (s : State) (r : DecResult) :
    (s.showResult r).activeCommand = s.activeCommand := rfl

@[simp] theorem State.showResult_repeatDeadline (s : State) (r : DecResult) :
    (s.showResult r).repeatDeadline = s.repeatDeadline := rfl

@[simp] theorem State.showResult_wdWake (s : State) (r : DecResult) :
    (s.showResult r).wdWake = s.wdWake := rfl

@[simp] theorem State.showResult_cfg (s : State) (r : DecResult) :
    (s.showResult r).cfg = s.cfg := rfl

@[simp] theorem State.showResult_now (s : State) (r : DecResult) :
    (s.showResult r).now = s.now := rfl

@[simp] theorem State.showResult_inputs (s : State) (r : DecResult) :
    (s.showResult r).inputs = s.inputs := rfl

@[simp] theorem State.showResult_out (s : State) (r : DecResult) :
    (s.showResult r).out = { s.out with decResult := some r } := rfl

/-! ### setCount -/

@[simp] theorem State.setCount_connected (s : State) (n : Count) :
    (s.setCount n).connected = s.connected := rfl

@[simp] theorem State.setCount_bitsReceived (s : State) (n : Count) :
    (s.setCount n).bitsReceived = n := rfl

@[simp] theorem State.setCount_highWord (s : State) (n : Count) :
    (s.setCount n).highWord = s.highWord := rfl

@[simp] theorem State.setCount_lowWord (s : State) (n : Count) :
    (s.setCount n).lowWord = s.lowWord := rfl

@[simp] theorem State.setCount_datagram (s : State) (n : Count) :
    (s.setCount n).datagram = s.datagram := rfl

@[simp] theorem State.setCount_hasNewDatagram (s : State) (n : Count) :
    (s.setCount n).hasNewDatagram = s.hasNewDatagram := rfl

@[simp] theorem State.setCount_activeCommand (s : State) (n : Count) :
    (s.setCount n).activeCommand = s.activeCommand := rfl

@[simp] theorem State.setCount_repeatDeadline (s : State) (n : Count) :
    (s.setCount n).repeatDeadline = s.repeatDeadline := rfl

@[simp] theorem State.setCount_wdWake (s : State) (n : Count) :
    (s.setCount n).wdWake = s.wdWake := rfl

@[simp] theorem State.setCount_cfg (s : State) (n : Count) :
    (s.setCount n).cfg = s.cfg := rfl

@[simp] theorem State.setCount_now (s : State) (n : Count) :
    (s.setCount n).now = s.now := rfl

@[simp] theorem State.setCount_inputs (s : State) (n : Count) :
    (s.setCount n).inputs = s.inputs := rfl

@[simp] theorem State.setCount_out (s : State) (n : Count) :
    (s.setCount n).out = s.out := rfl

/-! ### shiftHigh -/

@[simp] theorem State.shiftHigh_connected (s : State) (b : Bool) :
    (s.shiftHigh b).connected = s.connected := rfl

@[simp] theorem State.shiftHigh_bitsReceived (s : State) (b : Bool) :
    (s.shiftHigh b).bitsReceived = s.bitsReceived := rfl

@[simp] theorem State.shiftHigh_highWord (s : State) (b : Bool) :
    (s.shiftHigh b).highWord = shl16 s.highWord b := rfl

@[simp] theorem State.shiftHigh_lowWord (s : State) (b : Bool) :
    (s.shiftHigh b).lowWord = s.lowWord := rfl

@[simp] theorem State.shiftHigh_datagram (s : State) (b : Bool) :
    (s.shiftHigh b).datagram = s.datagram := rfl

@[simp] theorem State.shiftHigh_hasNewDatagram (s : State) (b : Bool) :
    (s.shiftHigh b).hasNewDatagram = s.hasNewDatagram := rfl

@[simp] theorem State.shiftHigh_activeCommand (s : State) (b : Bool) :
    (s.shiftHigh b).activeCommand = s.activeCommand := rfl

@[simp] theorem State.shiftHigh_repeatDeadline (s : State) (b : Bool) :
    (s.shiftHigh b).repeatDeadline = s.repeatDeadline := rfl

@[simp] theorem State.shiftHigh_wdWake (s : State) (b : Bool) :
    (s.shiftHigh b).wdWake = s.wdWake := rfl

@[simp] theorem State.shiftHigh_cfg (s : State) (b : Bool) :
    (s.shiftHigh b).cfg = s.cfg := rfl

@[simp] theorem State.shiftHigh_now (s : State) (b : Bool) :
    (s.shiftHigh b).now = s.now := rfl

@[simp] theorem State.shiftHigh_inputs (s : State) (b : Bool) :
    (s.shiftHigh b).inputs = s.inputs := rfl

@[simp] theorem State.shiftHigh_out (s : State) (b : Bool) :
    (s.shiftHigh b).out = s.out := rfl

/-! ### shiftLow -/

@[simp] theorem State.shiftLow_connected (s : State) (b : Bool) :
    (s.shiftLow b).connected = s.connected := rfl

@[simp] theorem State.shiftLow_bitsReceived (s : State) (b : Bool) :
    (s.shiftLow b).bitsReceived = s.bitsReceived := rfl

@[simp] theorem State.shiftLow_highWord (s : State) (b : Bool) :
    (s.shiftLow b).highWord = s.highWord := rfl

@[simp] theorem State.shiftLow_lowWord (s : State) (b : Bool) :
    (s.shiftLow b).lowWord = shl16 s.lowWord b := rfl

@[simp] theorem State.shiftLow_datagram (s : State) (b : Bool) :
    (s.shiftLow b).datagram = s.datagram := rfl

@[simp] theorem State.shiftLow_hasNewDatagram (s : State) (b : Bool) :
    (s.shiftLow b).hasNewDatagram = s.hasNewDatagram := rfl

@[simp] theorem State.shiftLow_activeCommand (s : State) (b : Bool) :
    (s.shiftLow b).activeCommand = s.activeCommand := rfl

@[simp] theorem State.shiftLow_repeatDeadline (s : State) (b : Bool) :
    (s.shiftLow b).repeatDeadline = s.repeatDeadline := rfl

@[simp] theorem State.shiftLow_wdWake (s : State) (b : Bool) :
    (s.shiftLow b).wdWake = s.wdWake := rfl

@[simp] theorem State.shiftLow_cfg (s : State) (b : Bool) :
    (s.shiftLow b).cfg = s.cfg := rfl

@[simp] theorem State.shiftLow_now (s : State) (b : Bool) :
    (s.shiftLow b).now = s.now := rfl

@[simp] theorem State.shiftLow_inputs (s : State) (b : Bool) :
    (s.shiftLow b).inputs = s.inputs := rfl

@[simp] theorem State.shiftLow_out (s : State) (b : Bool) :
    (s.shiftLow b).out = s.out := rfl

/-! ### setDatagram -/

@[simp] theorem State.setDatagram_connected (s : State) (d : Option Datagram) :
    (s.setDatagram d).connected = s.connected := rfl

@[simp] theorem State.setDatagram_bitsReceived (s : State) (d : Option Datagram) :
    (s.setDatagram d).bitsReceived = s.bitsReceived := rfl

@[simp] theorem State.setDatagram_highWord (s : State) (d : Option Datagram) :
    (s.setDatagram d).highWord = s.highWord := rfl

@[simp] theorem State.setDatagram_lowWord (s : State) (d : Option Datagram) :
    (s.setDatagram d).lowWord = s.lowWord := rfl

@[simp] theorem State.setDatagram_datagram (s : State) (d : Option Datagram) :
    (s.setDatagram d).datagram = d := rfl

@[simp] theorem State.setDatagram_hasNewDatagram (s : State) (d : Option Datagram) :
    (s.setDatagram d).hasNewDatagram = s.hasNewDatagram := rfl

@[simp] theorem State.setDatagram_activeCommand (s : State) (d : Option Datagram) :
    (s.setDatagram d).activeCommand = s.activeCommand := rfl

@[simp] theorem State.setDatagram_repeatDeadline (s : State) (d : Option Datagram) :
    (s.setDatagram d).repeatDeadline = s.repeatDeadline := rfl

@[simp] theorem State.setDatagram_wdWake (s : State) (d : Option Datagram) :
    (s.setDatagram d).wdWake = s.wdWake := rfl

@[simp] theorem State.setDatagram_cfg (s : State) (d : Option Datagram) :
    (s.setDatagram d).cfg = s.cfg := rfl

@[simp] theorem State.setDatagram_now (s : State) (d : Option Datagram) :
    (s.setDatagram d).now = s.now := rfl

@[simp] theorem State.setDatagram_inputs (s : State) (d : Option Datagram) :
    (s.setDatagram d).inputs = s.inputs := rfl

@[simp] theorem State.setDatagram_out (s : State) (d : Option Datagram) :
    (s.setDatagram d).out = s.out := rfl

/-! ### setActive -/

@[simp] theorem State.setActive_connected (s : State) (a : Option Word) :
    (s.setActive a).connected = s.connected := rfl

@[simp] theorem State.setActive_bitsReceived (s : State) (a : Option Word) :
    (s.setActive a).bitsReceived = s.bitsReceived := rfl

@[simp] theorem State.setActive_highWord (s : State) (a : Option Word) :
    (s.setActive a).highWord = s.highWord := rfl

@[simp] theorem State.setActive_lowWord (s : State) (a : Option Word) :
    (s.setActive a).lowWord = s.lowWord := rfl

@[simp] theorem State.setActive_datagram (s : State) (a : Option Word) :
    (s.setActive a).datagram = s.datagram := rfl

@[simp] theorem State.setActive_hasNewDatagram (s : State) (a : Option Word) :
    (s.setActive a).hasNewDatagram = s.hasNewDatagram := rfl

@[simp] theorem State.setActive_activeCommand (s : State) (a : Option Word) :
    (s.setActive a).activeCommand = a := rfl

@[simp] theorem State.setActive_repeatDeadline (s : State) (a : Option Word) :
    (s.setActive a).repeatDeadline = s.repeatDeadline := rfl

@[simp] theorem State.setActive_wdWake (s : State) (a : Option Word) :
    (s.setActive a).wdWake = s.wdWake := rfl

@[simp] theorem State.setActive_cfg (s : State) (a : Option Word) :
    (s.setActive a).cfg = s.cfg := rfl

@[simp] theorem State.setActive_now (s : State) (a : Option Word) :
    (s.setActive a).now = s.now := rfl

@[simp] theorem State.setActive_inputs (s : State) (a : Option Word) :
    (s.setActive a).inputs = s.inputs := rfl

@[simp] theorem State.setActive_out (s : State) (a : Option Word) :
    (s.setActive a).out = s.out := rfl

/-! ### refreshDeadline -/

@[simp] theorem State.refreshDeadline_connected (s : State) :
    s.refreshDeadline.connected = s.connected := rfl

@[simp] theorem State.refreshDeadline_bitsReceived (s : State) :
    s.refreshDeadline.bitsReceived = s.bitsReceived := rfl

@[simp] theorem State.refreshDeadline_highWord (s : State) :
    s.refreshDeadline.highWord = s.highWord := rfl

@[simp] theorem State.refreshDeadline_lowWord (s : State) :
    s.refreshDeadline.lowWord = s.lowWord := rfl

@[simp] theorem State.refreshDeadline_datagram (s : State) :
    s.refreshDeadline.datagram = s.datagram := rfl

@[simp] theorem State.refreshDeadline_hasNewDatagram (s : State) :
    s.refreshDeadline.hasNewDatagram = s.hasNewDatagram := rfl

@[simp] theorem State.refreshDeadline_activeCommand (s : State) :
    s.refreshDeadline.activeCommand = s.activeCommand := rfl

@[simp] theorem State.refreshDeadline_repeatDeadline (s : State) :
    s.refreshDeadline.repeatDeadline = s.now + s.cfg.repeatWindow := rfl

@[simp] theorem State.refreshDeadline_wdWake (s : State) :
    s.refreshDeadline.wdWake = s.wdWake := rfl

@[simp] theorem State.refreshDeadline_cfg (s : State) :
    s.refreshDeadline.cfg = s.cfg := rfl

@[simp] theorem State.refreshDeadline_now (s : State) :
    s.refreshDeadline.now = s.now := rfl

@[simp] theorem State.refreshDeadline_inputs (s : State) :
    s.refreshDeadline.inputs = s.inputs := rfl

@[simp] theorem State.refreshDeadline_out (s : State) :
    s.refreshDeadline.out = s.out := rfl

/-! ### sleepFor -/

@[simp] theorem State.sleepFor_connected (s : State) (l : Nat) :
    (s.sleepFor l).connected = s.connected := rfl

@[simp] theorem State.sleepFor_bitsReceived (s : State) (l : Nat) :
    (s.sleepFor l).bitsReceived = s.bitsReceived := rfl

@[simp] theorem State.sleepFor_highWord (s : State) (l : Nat) :
    (s.sleepFor l).highWord = s.highWord := rfl

@[simp] theorem State.sleepFor_lowWord (s : State) (l : Nat) :
    (s.sleepFor l).lowWord = s.lowWord := rfl

@[simp] theorem State.sleepFor_datagram (s : State) (l : Nat) :
    (s.sleepFor l).datagram = s.datagram := rfl

@[simp] theorem State.sleepFor_hasNewDatagram (s : State) (l : Nat) :
    (s.sleepFor l).hasNewDatagram = s.hasNewDatagram := rfl

@[simp] theorem State.sleepFor_activeCommand (s : State) (l : Nat) :
    (s.sleepFor l).activeCommand = s.activeCommand := rfl

@[simp] theorem State.sleepFor_repeatDeadline (s : State) (l : Nat) :
    (s.sleepFor l).repeatDeadline = s.repeatDeadline := rfl

@[simp] theorem State.sleepFor_wdWake (s : State) (l : Nat) :
    (s.sleepFor l).wdWake = s.now + l := rfl

@[simp] theorem State.sleepFor_cfg (s : State) (l : Nat) :
    (s.sleepFor l).cfg = s.cfg := rfl

@[simp] theorem State.sleepFor_now (s : State) (l : Nat) :
    (s.sleepFor l).now = s.now := rfl

@[simp] theorem State.sleepFor_inputs (s : State) (l : Nat) :
    (s.sleepFor l).inputs = s.inputs := rfl

@[simp] theorem State.sleepFor_out (s : State) (l : Nat) :
    (s.sleepFor l).out = s.out := rfl

/-! ### wakeAtOnce -/

@[simp] theorem State.wakeAtOnce_connected (s : State) :
    s.wakeAtOnce.connected = s.connected := rfl

@[simp] theorem State.wakeAtOnce_bitsReceived (s : State) :
    s.wakeAtOnce.bitsReceived = s.bitsReceived := rfl

@[simp] theorem State.wakeAtOnce_highWord (s : State) :
    s.wakeAtOnce.highWord = s.highWord := rfl

@[simp] theorem State.wakeAtOnce_lowWord (s : State) :
    s.wakeAtOnce.lowWord = s.lowWord := rfl

@[simp] theorem State.wakeAtOnce_datagram (s : State) :
    s.wakeAtOnce.datagram = s.datagram := rfl

@[simp] theorem State.wakeAtOnce_hasNewDatagram (s : State) :
    s.wakeAtOnce.hasNewDatagram = s.hasNewDatagram := rfl

@[simp] theorem State.wakeAtOnce_activeCommand (s : State) :
    s.wakeAtOnce.activeCommand = s.activeCommand := rfl

@[simp] theorem State.wakeAtOnce_repeatDeadline (s : State) :
    s.wakeAtOnce.repeatDeadline = s.repeatDeadline := rfl

@[simp] theorem State.wakeAtOnce_wdWake (s : State) :
    s.wakeAtOnce.wdWake = s.now := rfl

@[simp] theorem State.wakeAtOnce_cfg (s : State) :
    s.wakeAtOnce.cfg = s.cfg := rfl

@[simp] theorem State.wakeAtOnce_now (s : State) :
    s.wakeAtOnce.now = s.now := rfl

@[simp] theorem State.wakeAtOnce_inputs (s : State) :
    s.wakeAtOnce.inputs = s.inputs := rfl

@[simp] theorem State.wakeAtOnce_out (s : State) :
    s.wakeAtOnce.out = s.out := rfl

/-! ### takeInput -/

@[simp] theorem State.takeInput_connected (s : State) (i : Input) (rest : List Input) :
    (s.takeInput i rest).connected = s.connected := rfl

@[simp] theorem State.takeInput_bitsReceived (s : State) (i : Input) (rest : List Input) :
    (s.takeInput i rest).bitsReceived = s.bitsReceived := rfl

@[simp] theorem State.takeInput_highWord (s : State) (i : Input) (rest : List Input) :
    (s.takeInput i rest).highWord = s.highWord := rfl

@[simp] theorem State.takeInput_lowWord (s : State) (i : Input) (rest : List Input) :
    (s.takeInput i rest).lowWord = s.lowWord := rfl

@[simp] theorem State.takeInput_datagram (s : State) (i : Input) (rest : List Input) :
    (s.takeInput i rest).datagram = s.datagram := rfl

@[simp] theorem State.takeInput_hasNewDatagram (s : State) (i : Input) (rest : List Input) :
    (s.takeInput i rest).hasNewDatagram = s.hasNewDatagram := rfl

@[simp] theorem State.takeInput_activeCommand (s : State) (i : Input) (rest : List Input) :
    (s.takeInput i rest).activeCommand = s.activeCommand := rfl

@[simp] theorem State.takeInput_repeatDeadline (s : State) (i : Input) (rest : List Input) :
    (s.takeInput i rest).repeatDeadline = s.repeatDeadline := rfl

@[simp] theorem State.takeInput_wdWake (s : State) (i : Input) (rest : List Input) :
    (s.takeInput i rest).wdWake = s.wdWake := rfl

@[simp] theorem State.takeInput_cfg (s : State) (i : Input) (rest : List Input) :
    (s.takeInput i rest).cfg = s.cfg := rfl

@[simp] theorem State.takeInput_now (s : State) (i : Input) (rest : List Input) :
    (s.takeInput i rest).now = i.now := rfl

@[simp] theorem State.takeInput_inputs (s : State) (i : Input) (rest : List Input) :
    (s.takeInput i rest).inputs = rest := rfl

@[simp] theorem State.takeInput_out (s : State) (i : Input) (rest : List Input) :
    (s.takeInput i rest).out = s.out := rfl

end Sys2Proof.Machine
end

