-- ==== Sys2Proof/Laws/Ops.lean ====
section
/-! SUPPORT. One lemma per shared operation that says all it can do: the run, the router, the accumulator, the watchdog,
the creation of the state. -/

namespace Sys2Proof.Machine

open Sys2Proof

/-! ### The run -/

theorem offered_nil {s : State} (h : s.inputs = []) : offered s = .ok (encode .nop, s) := by
  simp [offered, h]

theorem offered_cons {s : State} {i : Input} {rest : List Input} (h : s.inputs = i :: rest)
    (ht : s.now ≤ i.now) : offered s = .ok (i.word, s.takeInput i rest) := by
  simp [offered, h, Nat.not_lt.mpr ht]

theorem offered_backwards {s : State} {i : Input} {rest : List Input} (h : s.inputs = i :: rest)
    (ht : i.now < s.now) : offered s = .error .timeRanBackwards := by
  simp [offered, h, ht]

/-- What the run can offer. -/
theorem offered_cases (s : State) :
    (s.inputs = [] ∧ offered s = .ok (encode .nop, s)) ∨
    (∃ i rest, s.inputs = i :: rest ∧ s.now ≤ i.now ∧ offered s = .ok (i.word, s.takeInput i rest)) ∨
    (∃ i rest, s.inputs = i :: rest ∧ i.now < s.now ∧ offered s = .error .timeRanBackwards) := by
  rcases hi : s.inputs with _ | ⟨i, rest⟩
  · exact .inl ⟨rfl, offered_nil hi⟩
  · by_cases ht : i.now < s.now
    · exact .inr (.inr ⟨i, rest, rfl, ht, offered_backwards hi ht⟩)
    · exact .inr (.inl ⟨i, rest, rfl, Nat.not_lt.mp ht, offered_cons hi (Nat.not_lt.mp ht)⟩)

/-! ### The router -/

/-- What the button logic can do: nothing, a first press, or a release and a press. -/
theorem buttonLogic_cases (d : Datagram) (s : State) :
    ((d.address ≠ s.cfg.targetAddress ∨ s.activeCommand = some d.command) ∧ buttonLogic d s = s) ∨
    (d.address = s.cfg.targetAddress ∧ s.activeCommand = none ∧
      buttonLogic d s = (s.setActive (some d.command)).emit (.pressed d.command)) ∨
    (∃ old, d.address = s.cfg.targetAddress ∧ s.activeCommand = some old ∧ old ≠ d.command ∧
      buttonLogic d s =
        ((s.emit (.released old)).setActive (some d.command)).emit (.pressed d.command)) := by
  unfold buttonLogic
  by_cases ha : d.address = s.cfg.targetAddress
  · cases h : s.activeCommand with
    | none => simp [ha]
    | some old =>
      by_cases hc : old = d.command
      · simp [ha, hc]
      · simp [ha, hc]
  · simp [ha]

@[simp] theorem route_repeat (s : State) : route .repeatMarker s = s.refreshDeadline := rfl

@[simp] theorem route_incomplete (s : State) : route .incomplete s = s := rfl

theorem route_datagram {s : State} {d : Datagram} (h : s.datagram = some d) :
    route .datagramReady s =
      buttonLogic d (((s.setReceived true).refreshDeadline).emit .datagramReady) := by
  simp [route, routeDatagram, h]

/-! ### The accumulator -/

theorem appendBit_overrun {s : State} (bit : Bool) (h : s.cfg.frameBits ≤ s.bitsReceived.toNat) :
    appendBit bit s = (s, .incomplete) := by
  simp [appendBit, h]

theorem appendBit_high {s : State} (bit : Bool) (hf : s.bitsReceived.toNat < s.cfg.frameBits)
    (h : s.bitsReceived.toNat < s.cfg.wordBits) :
    appendBit bit s = ((s.setCount (s.bitsReceived + 1)).shiftHigh bit, .incomplete) := by
  rw [appendBit]
  rw [if_neg (by omega), if_pos (by omega)]

theorem appendBit_low {s : State} (bit : Bool) (h : s.cfg.wordBits ≤ s.bitsReceived.toNat)
    (h' : s.bitsReceived.toNat + 1 < s.cfg.frameBits) :
    appendBit bit s = ((s.setCount (s.bitsReceived + 1)).shiftLow bit, .incomplete) := by
  rw [appendBit]
  rw [if_neg (by omega), if_neg (by omega), if_neg (by omega)]

theorem appendBit_last {s : State} (bit : Bool) (h : s.cfg.wordBits ≤ s.bitsReceived.toNat)
    (h' : s.bitsReceived.toNat + 1 = s.cfg.frameBits) :
    appendBit bit s =
      (((s.setCount (s.bitsReceived + 1)).shiftLow bit).setDatagram
        (some (committed bit s)), .datagramReady) := by
  rw [appendBit]
  rw [if_neg (by omega), if_neg (by omega), if_pos (by omega)]

/-- The four bands of a count in a frame of `f` bits with a first section of `w`. -/
theorem count_cases (n f w : Nat) :
    (n < f ∧ n < w) ∨ (w ≤ n ∧ n + 1 < f) ∨ (w ≤ n ∧ n + 1 = f) ∨ f ≤ n := by
  omega

/-- The count after an accepted bit does not wrap (R112 (c)). -/
theorem count_succ_toNat {n : Count} (h : n.toNat < 63) : (n + 1).toNat = n.toNat + 1 := by
  rw [BitVec.toNat_add]
  simp
  omega

/-- The count after an accepted bit, as the number it stands for. -/
theorem count_succ_eq_ofNat (n : Count) : n + 1 = BitVec.ofNat 6 (n.toNat + 1) := by
  apply BitVec.eq_of_toNat_eq
  simp [BitVec.toNat_add]

/-- The bit before the last makes the whole frame. -/
theorem count_succ_last {n : Count} {f : Nat} (h : n.toNat + 1 = f) : n + 1 = BitVec.ofNat 6 f := by
  rw [count_succ_eq_ofNat, h]

/-- `shl16` as arithmetic: double, add the bit, drop what passes bit 15. -/
theorem shl16_toNat (w : Word) (bit : Bool) :
    (shl16 w bit).toNat = (2 * w.toNat + bit.toNat) % 65536 := by
  have hw := w.isLt
  have hs : (w <<< 1).toNat = 2 ^ 1 * (w.toNat % 32768) := by
    rw [BitVec.toNat_shiftLeft, Nat.shiftLeft_eq]
    omega
  have hb : ((BitVec.ofBool bit).zeroExtend 16).toNat = bit.toNat := by
    cases bit <;> rfl
  have hlt : bit.toNat < 2 ^ 1 := by
    cases bit <;> decide
  unfold shl16
  rw [BitVec.toNat_or, hs, hb, ← Nat.two_pow_add_eq_or_of_lt hlt]
  omega

/-- The same as an equation between words. -/
theorem shl16_eq_ofNat (w : Word) (bit : Bool) :
    shl16 w bit = BitVec.ofNat 16 (2 * w.toNat + bit.toNat) := by
  apply BitVec.eq_of_toNat_eq
  rw [shl16_toNat, BitVec.toNat_ofNat]

/-- A section is the accumulator's number modulo `2^WORD_BITS`. -/
theorem sectionBits_eq (c : Config) (w : Word) : sectionBits c w = c.sectionOf w.toNat := by
  have hw := w.isLt
  apply BitVec.eq_of_toNat_eq
  simp only [sectionBits, Config.sectionOf, BitVec.toNat_and, BitVec.toNat_ofNat]
  by_cases h : c.wordBits ≤ 16
  · have hp : 2 ^ c.wordBits ≤ 2 ^ 16 := Nat.pow_le_pow_right (by decide) h
    have hpos : 0 < 2 ^ c.wordBits := Nat.two_pow_pos _
    rw [Nat.mod_eq_of_lt (show 2 ^ c.wordBits - 1 < 2 ^ 16 by omega), Nat.and_two_pow_sub_one_eq_mod]
    have := Nat.mod_lt w.toNat hpos
    omega
  · obtain ⟨k, hk⟩ := Nat.exists_eq_add_of_le (show 16 ≤ c.wordBits by omega)
    have hm : 2 ^ c.wordBits = 2 ^ 16 * 2 ^ k := by rw [hk, Nat.pow_add]
    have hpos : 0 < 2 ^ k := Nat.two_pow_pos _
    rw [show (2 ^ c.wordBits - 1) % 2 ^ 16 = 2 ^ 16 - 1 by omega, Nat.and_two_pow_sub_one_eq_mod,
      Nat.mod_eq_of_lt (a := w.toNat) (b := 2 ^ c.wordBits) (by nlinarith)]

/-- The section of an accumulator into which a bit has just been shifted. -/
theorem sectionBits_shl16 (c : Config) (w : Word) (bit : Bool) :
    sectionBits c (shl16 w bit) = c.sectionOf (2 * w.toNat + bit.toNat) := by
  rw [sectionBits_eq, Config.sectionOf, Config.sectionOf, shl16_toNat]
  apply BitVec.eq_of_toNat_eq
  rw [BitVec.toNat_ofNat, BitVec.toNat_ofNat]
  by_cases h : c.wordBits ≤ 16
  · rw [Nat.mod_mod_of_dvd _ (show 2 ^ c.wordBits ∣ 65536 from Nat.pow_dvd_pow 2 h)]
  · have hd : 2 ^ 16 ∣ 2 ^ c.wordBits := Nat.pow_dvd_pow 2 (show 16 ≤ c.wordBits by omega)
    rw [Nat.mod_mod_of_dvd _ hd, Nat.mod_mod_of_dvd _ hd]
    omega

/-- The committed datagram in numbers. -/
theorem committed_eq (bit : Bool) (s : State) :
    committed bit s = ⟨s.cfg.sectionOf s.highWord.toNat, s.cfg.sectionOf (2 * s.lowWord.toNat + bit.toNat)⟩ := by
  rw [committed, sectionBits_eq, sectionBits_shl16]

/-- At the default `WORD_BITS` a section is the whole register (R24). -/
theorem sectionBits_default {c : Config} (h : c.wordBits = 16) (w : Word) : sectionBits c w = w := by
  rw [sectionBits_eq, Config.sectionOf, h]
  exact BitVec.eq_of_toNat_eq (by rw [BitVec.toNat_ofNat]; have := w.isLt; omega)

/-! ### The whole pulse -/

@[simp] theorem exec_bitPulse (bit : Bool) (mark space : Word) (s : State) :
    exec (.bitPulse bit mark space) s = .next (pulseBit bit s) := by
  cases bit <;> rfl


@[simp] theorem pulseBit_unconnected {s : State} (bit : Bool) (h : s.connected = false) :
    pulseBit bit s = s.clearOut := by
  simp [pulseBit, h]

@[simp] theorem pulseBoundary_unconnected {s : State} (r : DecResult) (h : s.connected = false) :
    pulseBoundary r s = s.clearOut := by
  simp [pulseBoundary, h]

theorem pulseBoundary_connected {s : State} (r : DecResult) (h : s.connected = true) :
    pulseBoundary r s = route r ((s.clearOut.setCount 0#6).showResult r) := by
  simp [pulseBoundary, h]

theorem pulseBit_overrun {s : State} (bit : Bool) (h : s.connected = true)
    (hn : s.cfg.frameBits ≤ s.bitsReceived.toNat) : pulseBit bit s = s.clearOut.showResult .incomplete := by
  have := appendBit_overrun (s := s.clearOut) bit hn
  simp [pulseBit, h, this]

theorem pulseBit_high {s : State} (bit : Bool) (h : s.connected = true)
    (hf : s.bitsReceived.toNat < s.cfg.frameBits) (hn : s.bitsReceived.toNat < s.cfg.wordBits) :
    pulseBit bit s =
      ((s.clearOut.setCount (s.bitsReceived + 1)).shiftHigh bit).showResult .incomplete := by
  have := appendBit_high (s := s.clearOut) bit hf hn
  simp [pulseBit, h, this]

theorem pulseBit_low {s : State} (bit : Bool) (h : s.connected = true)
    (hn : s.cfg.wordBits ≤ s.bitsReceived.toNat) (hn' : s.bitsReceived.toNat + 1 < s.cfg.frameBits) :
    pulseBit bit s =
      ((s.clearOut.setCount (s.bitsReceived + 1)).shiftLow bit).showResult .incomplete := by
  have := appendBit_low (s := s.clearOut) bit hn hn'
  simp [pulseBit, h, this]

theorem pulseBit_last {s : State} (bit : Bool) (h : s.connected = true)
    (hn : s.cfg.wordBits ≤ s.bitsReceived.toNat) (hn' : s.bitsReceived.toNat + 1 = s.cfg.frameBits) :
    pulseBit bit s =
      buttonLogic (committed bit s)
        ((((((s.clearOut.setCount (s.bitsReceived + 1)).shiftLow bit).setDatagram
          (some (committed bit s))).showResult .datagramReady).setReceived
          true).refreshDeadline.emit .datagramReady) := by
  have := appendBit_last (s := s.clearOut) bit hn hn'
  simp only [pulseBit, h, if_true, this]
  exact route_datagram rfl

/-! ### The watchdog -/

theorem wakeEnabled_iff (s : State) :
    wakeEnabled s = true ↔ s.connected = true ∧ s.wdWake ≤ s.now := by
  simp [wakeEnabled]

/-- The three branches of a pass. -/
theorem wakePass_cases (s : State) :
    (s.activeCommand = none ∧ wakePass s = s.sleepFor s.cfg.wdIdleSleep) ∨
    (∃ c, s.activeCommand = some c ∧ s.repeatDeadline < s.now ∧
      wakePass s = ((s.emit (.released c)).setActive none).sleepFor s.cfg.wdIdleSleep) ∨
    (∃ c, s.activeCommand = some c ∧ s.now ≤ s.repeatDeadline ∧
      wakePass s = s.sleepFor s.cfg.wdTrackSleep) := by
  unfold wakePass
  cases h : s.activeCommand with
  | none => simp
  | some c =>
    by_cases hd : s.repeatDeadline < s.now
    · simp [hd]
    · simp [hd, Nat.not_lt.mp hd]

end Sys2Proof.Machine
end

