-- ==== Sys2Proof/Laws/Exec.lean ====
section
/-! SUPPORT. What a step can do, said once: the inversion lemmas of the pulse of a bit class, of `exec` and of `step`. Later
proofs cite them and unfold nothing. -/

namespace Sys2Proof.Machine

open Sys2Proof

/-- The thirty-second bit: the commit and the refresh always, and one of three outcomes of the button logic. -/
theorem pulseBit_last_cases (bit : Bool) {s : State} (hc : s.connected = true)
    (hn : s.cfg.wordBits ≤ s.bitsReceived.toNat)
    (hn' : s.bitsReceived.toNat + 1 = s.cfg.frameBits) :
    ∃ a es,
      pulseBit bit s = { s with
        bitsReceived := BitVec.ofNat 6 s.cfg.frameBits
        lowWord := shl16 s.lowWord bit
        datagram := some (committed bit s)
        hasNewDatagram := true
        activeCommand := a
        repeatDeadline := s.now + s.cfg.repeatWindow
        out := { decResult := some .datagramReady, events := .datagramReady :: es } } ∧
      ((es = [] ∧ a = s.activeCommand ∧
          ((committed bit s).address ≠ s.cfg.targetAddress ∨ s.activeCommand = some (committed bit s).command)) ∨
        (es = [.pressed (committed bit s).command] ∧ a = some (committed bit s).command ∧
          (committed bit s).address = s.cfg.targetAddress ∧ s.activeCommand = none) ∨
        (∃ old, es = [.released old, .pressed (committed bit s).command] ∧ a = some (committed bit s).command ∧
          (committed bit s).address = s.cfg.targetAddress ∧ s.activeCommand = some old ∧
          old ≠ (committed bit s).command)) := by
  rw [pulseBit_last bit hc hn hn', count_succ_last hn']
  rcases buttonLogic_cases (committed bit s)
      ((((((s.clearOut.setCount (BitVec.ofNat 6 s.cfg.frameBits)).shiftLow bit).setDatagram
        (some (committed bit s))).showResult .datagramReady).setReceived
        true).refreshDeadline.emit .datagramReady)
    with ⟨h, e⟩ | ⟨h, h', e⟩ | ⟨old, h, h', h'', e⟩ <;> rw [e]
  · exact ⟨_, _, rfl, .inl ⟨rfl, rfl, h⟩⟩
  · exact ⟨_, _, rfl, .inr (.inl ⟨rfl, rfl, h, h'⟩)⟩
  · exact ⟨_, _, rfl, .inr (.inr ⟨old, rfl, rfl, h, h', h''⟩)⟩

/-- A pulse of a bit class at every count but the last. -/
theorem pulseBit_cases (bit : Bool) (s : State) :
    (s.connected = false ∧ pulseBit bit s = { s with out := {} }) ∨
    (s.connected = true ∧ s.bitsReceived.toNat < s.cfg.frameBits ∧ s.bitsReceived.toNat < s.cfg.wordBits ∧
      pulseBit bit s = { s with
      bitsReceived := s.bitsReceived + 1
      highWord := shl16 s.highWord bit
      out := { decResult := some .incomplete } }) ∨
    (s.connected = true ∧ s.cfg.wordBits ≤ s.bitsReceived.toNat ∧ s.bitsReceived.toNat + 1 < s.cfg.frameBits ∧
      pulseBit bit s = { s with
      bitsReceived := s.bitsReceived + 1
      lowWord := shl16 s.lowWord bit
      out := { decResult := some .incomplete } }) ∨
    (s.connected = true ∧ s.cfg.wordBits ≤ s.bitsReceived.toNat ∧ s.bitsReceived.toNat + 1 = s.cfg.frameBits) ∨
    (s.connected = true ∧ s.cfg.frameBits ≤ s.bitsReceived.toNat ∧
      pulseBit bit s = { s with out := { decResult := some .incomplete } }) := by
  by_cases hc : s.connected = true
  · rcases count_cases s.bitsReceived.toNat s.cfg.frameBits s.cfg.wordBits with ⟨h, h'⟩ | ⟨h, h'⟩ | h | h
    · exact .inr (.inl ⟨hc, h, h', pulseBit_high bit hc h h'⟩)
    · exact .inr (.inr (.inl ⟨hc, h, h', pulseBit_low bit hc h h'⟩))
    · exact .inr (.inr (.inr (.inl ⟨hc, h⟩)))
    · exact .inr (.inr (.inr (.inr ⟨hc, h, pulseBit_overrun bit hc h⟩)))
  · have hc : s.connected = false := by simpa using hc
    exact .inl ⟨hc, pulseBit_unconnected bit hc⟩

/-- A pulse of class Repeat. -/
theorem pulseBoundary_repeat_cases (s : State) :
    (s.connected = false ∧ pulseBoundary .repeatMarker s = { s with out := {} }) ∨
    (s.connected = true ∧ pulseBoundary .repeatMarker s = { s with
      bitsReceived := 0#6
      repeatDeadline := s.now + s.cfg.repeatWindow
      out := { decResult := some .repeatMarker } }) := by
  by_cases hc : s.connected = true
  · exact .inr ⟨hc, pulseBoundary_connected _ hc⟩
  · have hc : s.connected = false := by simpa using hc
    exact .inl ⟨hc, pulseBoundary_unconnected _ hc⟩

/-- A pulse of class Start or Noise. -/
theorem pulseBoundary_incomplete_cases (s : State) :
    (s.connected = false ∧ pulseBoundary .incomplete s = { s with out := {} }) ∨
    (s.connected = true ∧ pulseBoundary .incomplete s = { s with
      bitsReceived := 0#6
      out := { decResult := some .incomplete } }) := by
  by_cases hc : s.connected = true
  · exact .inr ⟨hc, pulseBoundary_connected _ hc⟩
  · have hc : s.connected = false := by simpa using hc
    exact .inl ⟨hc, pulseBoundary_unconnected _ hc⟩

/-- A wake: turned away by its guard, or one of the three branches. -/
theorem wake_cases {s t : State} (h : exec .wdwake s = .next t) :
    ((s.connected = false ∨ s.now < s.wdWake) ∧ t = { s with out := {} }) ∨
    (s.connected = true ∧ s.wdWake ≤ s.now ∧ s.activeCommand = none ∧
      t = { s with wdWake := s.now + s.cfg.wdIdleSleep, out := {} }) ∨
    (∃ c, s.connected = true ∧ s.wdWake ≤ s.now ∧ s.activeCommand = some c ∧ s.repeatDeadline < s.now ∧
      t = { s with
        activeCommand := none
        wdWake := s.now + s.cfg.wdIdleSleep
        out := { events := [.released c] } }) ∨
    (∃ c, s.connected = true ∧ s.wdWake ≤ s.now ∧ s.activeCommand = some c ∧ s.now ≤ s.repeatDeadline ∧
      t = { s with wdWake := s.now + s.cfg.wdTrackSleep, out := {} }) := by
  have ht := (Host.Outcome.next.inj h).symm
  by_cases hw : wakeEnabled s = true
  · rw [if_pos hw] at ht
    obtain ⟨hc, hn⟩ := (wakeEnabled_iff s).mp hw
    rcases wakePass_cases s.clearOut with ⟨ha, e⟩ | ⟨c, ha, hd, e⟩ | ⟨c, ha, hd, e⟩
    · exact .inr (.inl ⟨hc, hn, ha, ht.trans e⟩)
    · exact .inr (.inr (.inl ⟨c, hc, hn, ha, hd, ht.trans e⟩))
    · exact .inr (.inr (.inr ⟨c, hc, hn, ha, hd, ht.trans e⟩))
  · rw [if_neg hw] at ht
    rw [wakeEnabled_iff, not_and_or, Nat.not_le, Bool.not_eq_true] at hw
    exact .inl ⟨hw, ht⟩

/-- `CONNECT`: nothing, or the created state. -/
theorem connect_cases {s t : State} (h : exec .connect s = .next t) :
    (s.connected = true ∧ t = { s with out := {} }) ∨
    (s.connected = false ∧ t = { s with
      connected := true
      bitsReceived := 0#6
      datagram := none
      hasNewDatagram := false
      activeCommand := none
      wdWake := s.now
      out := {} }) := by
  have ht := (Host.Outcome.next.inj h).symm
  by_cases hc : s.connected = true
  · rw [if_pos hc] at ht
    exact .inl ⟨hc, ht⟩
  · rw [if_neg hc] at ht
    exact .inr ⟨by simpa using hc, ht⟩

/-- What an operation can do: the class of a pulse with its function, a wake or a `CONNECT` with its cases above, or one
of the consumer's other operations. -/
theorem exec_cases {i : Instr} {s t : State} (h : exec i s = .next t) :
    (∃ bit, i.bitOf = some bit ∧ t = pulseBit bit s) ∨
    (∃ mark space, i = .pulseRepeat mark space ∧ t = pulseBoundary .repeatMarker s) ∨
    (∃ mark space, (i = .pulseStart mark space ∨ i = .pulseNoise mark space) ∧
      t = pulseBoundary .incomplete s) ∨
    i = .wdwake ∨
    i = .connect ∨
    (i = .nop ∧ t = { s with out := {} }) ∨
    (i = .pollrx ∧
      t = { s with hasNewDatagram := false, out := { reply := some (.flag s.hasNewDatagram) } }) ∨
    (i = .getcmd ∧
      t = { s with out := { reply := some (.command (s.datagram.map Datagram.command)) } }) ∨
    (i = .getdgram ∧ t = { s with out := { reply := some (.datagram s.datagram) } }) := by
  cases i <;>
    simp only [exec, execNop, execPulseZero, execPulseOne, execPulseRepeat, execPulseStart,
      execPulseNoise, execPollrx, execGetcmd, execGetdgram, execReserved,
      Host.Outcome.next.injEq, reduceCtorEq] at h <;>
    (try subst h) <;> simp <;> rfl

/-- Everything an operation can do, one constructor per effect, each with the condition under which it happens and the
whole next state. -/
inductive Effect (i : Instr) (s : State) : State → Prop where
  /-- a pulse before `CONNECT` (R108) -/
  | unconnectedPulse (hi : i.isPulse = true) (hc : s.connected = false) : Effect i s { s with out := {} }
  /-- a bit into `highWord` (R101) -/
  | highBit (bit : Bool) (hi : i.bitOf = some bit) (hc : s.connected = true)
      (hf : s.bitsReceived.toNat < s.cfg.frameBits) (hn : s.bitsReceived.toNat < s.cfg.wordBits) : Effect i s { s with
        bitsReceived := s.bitsReceived + 1
        highWord := shl16 s.highWord bit
        out := { decResult := some .incomplete } }
  /-- a bit into `lowWord` (R101) -/
  | lowBit (bit : Bool) (hi : i.bitOf = some bit) (hc : s.connected = true)
      (hn : s.cfg.wordBits ≤ s.bitsReceived.toNat)
      (hn' : s.bitsReceived.toNat + 1 < s.cfg.frameBits) : Effect i s { s with
        bitsReceived := s.bitsReceived + 1
        lowWord := shl16 s.lowWord bit
        out := { decResult := some .incomplete } }
  /-- the thirty-second bit (R101, R121), with what the button logic adds (R124 to R126) -/
  | lastBit (bit : Bool) (a : Option Word) (es : List Event) (hi : i.bitOf = some bit)
      (hc : s.connected = true) (hn : s.cfg.wordBits ≤ s.bitsReceived.toNat)
      (hn' : s.bitsReceived.toNat + 1 = s.cfg.frameBits)
      (hb : (es = [] ∧ a = s.activeCommand ∧
          ((committed bit s).address ≠ s.cfg.targetAddress ∨ s.activeCommand = some (committed bit s).command)) ∨
        (es = [.pressed (committed bit s).command] ∧ a = some (committed bit s).command ∧
          (committed bit s).address = s.cfg.targetAddress ∧ s.activeCommand = none) ∨
        (∃ old, es = [.released old, .pressed (committed bit s).command] ∧ a = some (committed bit s).command ∧
          (committed bit s).address = s.cfg.targetAddress ∧ s.activeCommand = some old ∧
          old ≠ (committed bit s).command)) :
      Effect i s { s with
        bitsReceived := BitVec.ofNat 6 s.cfg.frameBits
        lowWord := shl16 s.lowWord bit
        datagram := some (committed bit s)
        hasNewDatagram := true
        activeCommand := a
        repeatDeadline := s.now + s.cfg.repeatWindow
        out := { decResult := some .datagramReady, events := .datagramReady :: es } }
  /-- an overrun bit (R107) -/
  | overrunBit (bit : Bool) (hi : i.bitOf = some bit) (hc : s.connected = true)
      (hn : s.cfg.frameBits ≤ s.bitsReceived.toNat) : Effect i s { s with out := { decResult := some .incomplete } }
  /-- a repeat marker (R104, R122) -/
  | repeatMarker (mark space : Word) (hi : i = .pulseRepeat mark space) (hc : s.connected = true) :
      Effect i s { s with
        bitsReceived := 0#6
        repeatDeadline := s.now + s.cfg.repeatWindow
        out := { decResult := some .repeatMarker } }
  /-- a start marker or a noise interval (R105, R106) -/
  | startOrNoise (mark space : Word) (hi : i = .pulseStart mark space ∨ i = .pulseNoise mark space)
      (hc : s.connected = true) : Effect i s { s with
        bitsReceived := 0#6
        out := { decResult := some .incomplete } }
  /-- a wake its guard turns away (R147) -/
  | wakeTurnedAway (hi : i = .wdwake) (hg : s.connected = false ∨ s.now < s.wdWake) :
      Effect i s { s with out := {} }
  /-- a wake that finds Idle (R141) -/
  | wakeIdle (hi : i = .wdwake) (hc : s.connected = true) (hw : s.wdWake ≤ s.now)
      (ha : s.activeCommand = none) : Effect i s { s with
        wdWake := s.now + s.cfg.wdIdleSleep
        out := {} }
  /-- a wake past the deadline (R142) -/
  | wakeExpired (c : Word) (hi : i = .wdwake) (hc : s.connected = true) (hw : s.wdWake ≤ s.now)
      (ha : s.activeCommand = some c) (hd : s.repeatDeadline < s.now) : Effect i s { s with
        activeCommand := none
        wdWake := s.now + s.cfg.wdIdleSleep
        out := { events := [.released c] } }
  /-- a wake not past the deadline (R143) -/
  | wakeAlive (c : Word) (hi : i = .wdwake) (hc : s.connected = true) (hw : s.wdWake ≤ s.now)
      (ha : s.activeCommand = some c) (hd : s.now ≤ s.repeatDeadline) : Effect i s { s with
        wdWake := s.now + s.cfg.wdTrackSleep
        out := {} }
  /-- `CONNECT` again (R151) -/
  | connectAgain (hi : i = .connect) (hc : s.connected = true) : Effect i s { s with out := {} }
  /-- the first `CONNECT` (R150) -/
  | connectFirst (hi : i = .connect) (hc : s.connected = false) : Effect i s { s with
      connected := true
      bitsReceived := 0#6
      datagram := none
      hasNewDatagram := false
      activeCommand := none
      wdWake := s.now
      out := {} }
  /-- `NOP` (R155) -/
  | nop (hi : i = .nop) : Effect i s { s with out := {} }
  /-- `POLLRX` (R152) -/
  | pollrx (hi : i = .pollrx) : Effect i s { s with
      hasNewDatagram := false
      out := { reply := some (.flag s.hasNewDatagram) } }
  /-- `GETCMD` (R153) -/
  | getcmd (hi : i = .getcmd) : Effect i s { s with
      out := { reply := some (.command (s.datagram.map Datagram.command)) } }
  /-- `GETDGRAM` (R154) -/
  | getdgram (hi : i = .getdgram) : Effect i s { s with out := { reply := some (.datagram s.datagram) } }

/-- Every next state of an operation is one of its effects. -/
theorem exec_effect {i : Instr} {s t : State} (h : exec i s = .next t) : Effect i s t := by
  rcases exec_cases h with ⟨bit, hi, rfl⟩ | ⟨mark, space, hi, rfl⟩ | ⟨mark, space, hi, rfl⟩ | rfl | rfl |
    ⟨hi, rfl⟩ | ⟨hi, rfl⟩ | ⟨hi, rfl⟩ | ⟨hi, rfl⟩
  · rcases pulseBit_cases bit s with ⟨hc, e⟩ | ⟨hc, hf, hn, e⟩ | ⟨hc, hn, hn', e⟩ | ⟨hc, hn, hn'⟩ | ⟨hc, hn, e⟩
    · exact e ▸ .unconnectedPulse (Instr.isPulse_of_bitOf hi).1 hc
    · exact e ▸ .highBit bit hi hc hf hn
    · exact e ▸ .lowBit bit hi hc hn hn'
    · obtain ⟨a, es, e, hb⟩ := pulseBit_last_cases bit hc hn hn'
      exact e ▸ .lastBit bit a es hi hc hn hn' hb
    · exact e ▸ .overrunBit bit hi hc hn
  · rcases pulseBoundary_repeat_cases s with ⟨hc, e⟩ | ⟨hc, e⟩
    · exact e ▸ .unconnectedPulse (by simp [hi]) hc
    · exact e ▸ .repeatMarker mark space hi hc
  · rcases pulseBoundary_incomplete_cases s with ⟨hc, e⟩ | ⟨hc, e⟩
    · refine e ▸ .unconnectedPulse ?_ hc
      rcases hi with rfl | rfl <;> rfl
    · exact e ▸ .startOrNoise mark space hi hc
  · rcases wake_cases h with ⟨hg, rfl⟩ | ⟨hc, hw, ha, rfl⟩ | ⟨c, hc, hw, ha, hd, rfl⟩ | ⟨c, hc, hw, ha, hd, rfl⟩
    · exact .wakeTurnedAway rfl hg
    · exact .wakeIdle rfl hc hw ha
    · exact .wakeExpired c rfl hc hw ha hd
    · exact .wakeAlive c rfl hc hw ha hd
  · rcases connect_cases h with ⟨hc, rfl⟩ | ⟨hc, rfl⟩
    · exact .connectAgain rfl hc
    · exact .connectFirst rfl hc
  · exact .nop hi
  · exact .pollrx hi
  · exact .getcmd hi
  · exact .getdgram hi

/-- An operation whose bit is known runs the pulse of that bit. -/
theorem exec_of_bitOf {i : Instr} {bit : Bool} (h : i.bitOf = some bit) (s : State) :
    exec i s = .next (pulseBit bit s) := by
  cases i <;> simp only [Instr.bitOf, reduceCtorEq, Option.some.injEq] at h <;> subst h <;> rfl

/-- Every operation but the reserved one has a next state. -/
theorem exec_next_of_ne_reserved {i : Instr} (h : i ≠ .reserved) (s : State) : ∃ t, exec i s = .next t := by
  cases i with
  | reserved => exact absurd rfl h
  | _ => exact ⟨_, rfl⟩

/-- What a step can do: a `NOP` when nothing is offered, or the operation offered, at its time. -/
theorem step_cases {s t : State} (h : step s = .next t) :
    (s.inputs = [] ∧ t = { s with out := {} }) ∨
    (∃ i rest, s.inputs = i :: rest ∧ s.now ≤ i.now ∧
      exec (decode s.cfg i.word) (s.takeInput i rest) = .next t) := by
  rcases offered_cases s with ⟨hi, ho⟩ | ⟨i, rest, hi, ht, ho⟩ | ⟨i, rest, _, _, ho⟩ <;>
    simp only [step, ho, reduceCtorEq] at h
  · refine .inl ⟨hi, ?_⟩
    have hd : decode s.cfg (encode .nop) = .nop := decode_packWord _ _ _ _
    rw [hd] at h
    exact (Host.Outcome.next.inj h).symm
  · exact .inr ⟨i, rest, hi, ht, h⟩

end Sys2Proof.Machine
end

