-- ==== Sys2Proof/Laws/PerInstr.lean ====
section
/-! SUPPORT. The facts about every operation as syntax, one lemma per constructor. -/

namespace Sys2Proof.Laws.OpField

/-- The word of an operation carries the operation's code of R71 in `W[34:32]`. -/
def Statement (i : Instr) : Prop := opField (encode i) = i.opCode

theorem nop : Statement .nop := opField_packWord _ _ _

theorem connect : Statement .connect := opField_packWord _ _ _

theorem pulseZero (mark space : Word) : Statement (.pulseZero mark space) := opField_packWord _ _ _

theorem pulseOne (mark space : Word) : Statement (.pulseOne mark space) := opField_packWord _ _ _

theorem pulseRepeat (mark space : Word) : Statement (.pulseRepeat mark space) := opField_packWord _ _ _

theorem pulseStart (mark space : Word) : Statement (.pulseStart mark space) := opField_packWord _ _ _

theorem pulseNoise (mark space : Word) : Statement (.pulseNoise mark space) := opField_packWord _ _ _

theorem wdwake : Statement .wdwake := opField_packWord _ _ _

theorem pollrx : Statement .pollrx := opField_packWord _ _ _

theorem getcmd : Statement .getcmd := opField_packWord _ _ _

theorem getdgram : Statement .getdgram := opField_packWord _ _ _

theorem reserved : Statement .reserved := opField_packWord _ _ _

end Sys2Proof.Laws.OpField
end

