-- ==== Sys2Proof/Laws/Run.lean ====
section
/-! SUPPORT. Runs: how the predicates of Safety.lean on a run open at its first step. -/

namespace Sys2Proof.Machine

open Sys2Proof

/-- No operation writes the time, the rest of the run or the configuration. -/
theorem exec_keeps {i : Instr} {s t : State} (h : exec i s = .next t) :
    t.now = s.now ∧ t.inputs = s.inputs ∧ t.cfg = s.cfg := by
  cases exec_effect h <;> simp

/-- A run of `k + 1` steps that goes through: its first step, and the rest. -/
theorem runSteps_succ {k : Nat} {s t : State} (h : runSteps (k + 1) s = .next t) :
    ∃ u, step s = .next u ∧ runSteps k u = .next t := by
  rw [runSteps] at h
  cases hs : step s with
  | fault f => cases f
  | refused r => simp [hs] at h
  | next u => exact ⟨u, rfl, by simpa only [hs] using h⟩

theorem runSteps_of_step {k : Nat} {s u : State} (h : step s = .next u) :
    runSteps (k + 1) s = runSteps k u := by
  rw [runSteps, h]

theorem eventsOfRun_of_step {k : Nat} {s u : State} (h : step s = .next u) :
    eventsOfRun (k + 1) s = u.out.events ++ eventsOfRun k u := by
  rw [eventsOfRun, h]

/-- The scheduling obligation, one step at a time. -/
theorem onSchedule_of_step {slack k : Nat} {s u : State} {i : Input} {rest : List Input}
    (hi : s.inputs = i :: rest) (hw : i.now ≤ s.wdWake + slack) (hs : step s = .next u)
    (hu : onSchedule slack k u) : onSchedule slack (k + 1) s := by
  refine ⟨fun j r hj _ => ?_, fun t ht => ?_⟩
  · rw [hi] at hj
    obtain ⟨rfl, -⟩ := List.cons.inj hj
    exact hw
  · rw [hs] at ht
    exact Host.Outcome.next.inj ht ▸ hu

/-- The absence of a refresh, one step at a time. -/
theorem noRefresh_of_step {k : Nat} {s u : State} (hs : step s = .next u)
    (h : u.out.decResult ≠ some .datagramReady) (h' : u.out.decResult ≠ some .repeatMarker)
    (hu : noRefresh k u) : noRefresh (k + 1) s := by
  intro t ht
  rw [hs] at ht
  exact Host.Outcome.next.inj ht ▸ ⟨h, h', hu⟩

/-- Operations all offered at one instant run in order. -/
theorem timesFrom_const (t : Nat) (ws : List OpWord) : timesFrom t (ws.map (Input.mk t)) := by
  induction ws with
  | nil => trivial
  | cons w ws ih => exact ⟨Nat.le_refl t, ih⟩

/-- Words all offered at one instant, their times listed apart. -/
theorem zipWith_replicate (t : Nat) (ws : List OpWord) :
    List.zipWith Input.mk (List.replicate ws.length t) ws = ws.map (Input.mk t) := by
  induction ws with
  | nil => rfl
  | cons w ws ih => simp [List.replicate_succ, ih]

end Sys2Proof.Machine
end

