-- ==== Sys2Proof/Tests/Slice0.lean ====
section
/-! SUPPORT. Tests: the refusals of WellFormed, words written out from spec/30_encoding.md rules R70 and R71, single steps
from the vectors of spec/95_test_vectors.md, and a witness for the hypotheses of each statement. Expected values are
the spec's. -/

namespace Sys2Proof.Tests

open Sys2Proof Sys2Proof.Machine

/-! ### Helpers -/

/-- The configuration of the spec's vectors: the defaults, with their example `TARGET_ADDRESS`. -/
def vectorConfig : Config := { targetAddress := 0x00FF#16, wdSlack := some 0 }

/-- A connected state of the spec's vectors: the datagram (0x00FF, 0x629D), not new. -/
def vectorState (n : Count) (hi lo : Word) (active : Option Word) (deadline wake now : Nat) : State :=
  { State.powerUp vectorConfig with
    connected := true
    bitsReceived := n
    highWord := hi
    lowWord := lo
    datagram := some ⟨0x00FF#16, 0x629D#16⟩
    activeCommand := active
    repeatDeadline := deadline
    wdWake := wake
    now := now }

/-- The state after one step at time `t` on the word `w`; none if the step has no next state. -/
def after (s : State) (t : Nat) (w : OpWord) : Option State :=
  match step { s with inputs := [⟨t, w⟩] } with
  | .next u => some u
  | .fault _ => none
  | .refused _ => none

/-- `PULSE 560 1690`. -/
def oneWord : OpWord := 0x20230069A#35

/-- `PULSE 560 560`. -/
def zeroWord : OpWord := 0x202300230#35

/-- The premise of the frame sizes holds of the defaults (R6). -/
theorem vectorConfig_fits : vectorConfig.FrameFits := ⟨by decide, by decide, by decide⟩

/-- A configuration with smaller sections, to test that the sizes are read from it. -/
def shortConfig : Config := { vectorConfig with frameBits := 16, wordBits := 8 }

theorem shortConfig_fits : shortConfig.FrameFits := ⟨by decide, by decide, by decide⟩

/-! ### WellFormed refuses a pulse under another class's name -/

theorem smoke_zero_needs_short : (Instr.pulseZero 800#16 800#16).wf vectorConfig = false := by decide

theorem smoke_one_needs_its_range : (Instr.pulseOne 560#16 560#16).wf vectorConfig = false := by decide

theorem smoke_repeat_needs_its_range : (Instr.pulseRepeat 9000#16 3500#16).wf vectorConfig = false := by decide

theorem smoke_start_needs_its_range : (Instr.pulseStart 9000#16 5500#16).wf vectorConfig = false := by decide

theorem smoke_noise_needs_long : (Instr.pulseNoise 9000#16 5499#16).wf vectorConfig = false := by decide

/-! ### Decoding: V-ENC, and V-CLS at its boundaries; `op`, `mark`, `space` written apart -/

theorem test_decode_nop :
    decode vectorConfig (0b000#3 ++ 0b1111111111111111#16 ++ 0b1111111111111111#16) = .nop := by decide

theorem test_decode_connect :
    decode vectorConfig (0b001#3 ++ 0b1101111010101101#16 ++ 0b1011111011101111#16) = .connect := by decide

theorem test_decode_zero_at_1599 :
    decode vectorConfig (0b010#3 ++ 0b0000001100011111#16 ++ 0b0000001100100000#16) = .pulseZero 799#16 800#16 := by
  decide

theorem test_decode_one_at_1600 :
    decode vectorConfig (0b010#3 ++ 0b0000001100100000#16 ++ 0b0000001100100000#16) = .pulseOne 800#16 800#16 := by
  decide

theorem test_decode_one_at_2699 :
    decode vectorConfig (0b010#3 ++ 0b0000001111101000#16 ++ 0b0000011010100011#16) = .pulseOne 1000#16 1699#16 := by
  decide

theorem test_decode_repeat_at_2700 :
    decode vectorConfig (0b010#3 ++ 0b0000001111101000#16 ++ 0b0000011010100100#16) =
      .pulseRepeat 1000#16 1700#16 := by
  decide

theorem test_decode_repeat_at_12499 :
    decode vectorConfig (0b010#3 ++ 0b0010001100101000#16 ++ 0b0000110110101011#16) =
      .pulseRepeat 9000#16 3499#16 := by
  decide

theorem test_decode_start_at_12500 :
    decode vectorConfig (0b010#3 ++ 0b0010001100101000#16 ++ 0b0000110110101100#16) =
      .pulseStart 9000#16 3500#16 := by
  decide

theorem test_decode_start_at_14499 :
    decode vectorConfig (0b010#3 ++ 0b0010001100101000#16 ++ 0b0001010101111011#16) =
      .pulseStart 9000#16 5499#16 := by
  decide

theorem test_decode_noise_at_14500 :
    decode vectorConfig (0b010#3 ++ 0b0010001100101000#16 ++ 0b0001010101111100#16) =
      .pulseNoise 9000#16 5500#16 := by
  decide

/-- No wrap at 16 bits: the sum of the greatest operands is Noise, not Zero. -/
theorem test_decode_noise_at_131070 :
    decode vectorConfig (0b010#3 ++ 0b1111111111111111#16 ++ 0b1111111111111111#16) =
      .pulseNoise 65535#16 65535#16 := by
  decide

theorem test_decode_wdwake : decode vectorConfig (0b011#3 ++ 0#16 ++ 0#16) = .wdwake := by decide

theorem test_decode_pollrx :
    decode vectorConfig (0b100#3 ++ 0b1111111111111111#16 ++ 0b1111111111111111#16) = .pollrx := by decide

theorem test_decode_getcmd : decode vectorConfig (0b101#3 ++ 0#16 ++ 0#16) = .getcmd := by decide

theorem test_decode_getdgram : decode vectorConfig (0b110#3 ++ 0#16 ++ 0#16) = .getdgram := by decide

theorem test_decode_reserved : decode vectorConfig (0b111#3 ++ 0#16 ++ 0#16) = .reserved := by decide

/-- A number of more than 35 bits is no operation word. -/
theorem test_decode_too_wide : decodeNat vectorConfig (2 ^ 35) = .error .widerThanPort := by rfl

theorem test_table_word : decodeTableWord 35 0x2232808CA = some (.pulseRepeat 9000#16 2250#16) := by decide

/-- The example line of R83. -/
theorem test_trace_line : traceLine 1000 (.pulseStart 9000#16 4500#16) = ⟨1000, 0x223281194#35⟩ := by decide

/-- The host's way in: the word placed is the word the next step runs (here `GETCMD`, before any datagram: V-HOST-10). -/
theorem test_fetch_word :
    step (State.reset.withFetchWord 35 0x500000000) =
      .next { State.reset with out := { reply := some (.command none) } } := by
  rfl

/-! ### V-APP -/

theorem test_zero_last_of_highWord :
    (after (vectorState 15#6 0x7FFF#16 0x1234#16 none 0 0 0) 1000 zeroWord).map
      (fun s => (s.bitsReceived, s.highWord, s.lowWord)) = some (16#6, 0xFFFE#16, 0x1234#16) := by
  decide

theorem test_one_first_of_lowWord :
    (after (vectorState 16#6 0x00FF#16 0x1234#16 none 0 0 0) 1000 oneWord).map
      (fun s => (s.bitsReceived, s.highWord, s.lowWord)) = some (17#6, 0x00FF#16, 0x2469#16) := by
  decide

/-! ### V-RST, V-RTR -/

/-- V-RST, row `n = 5`, Repeat. -/
theorem test_repeat :
    (after (vectorState 5#6 0x00FF#16 0x314E#16 (some 0x629D#16) 1900 0 0) 2000 0x2232808CA#35).map
      (fun s => (s.bitsReceived, s.repeatDeadline, s.activeCommand, s.out)) =
      some (0#6, 2120, some 0x629D#16, { decResult := some .repeatMarker }) := by
  decide

/-- V-RST, row `n = 5`, Start. -/
theorem test_start :
    (after (vectorState 5#6 0x00FF#16 0x314E#16 (some 0x629D#16) 1900 0 0) 2000 0x223281194#35).map
      (fun s => (s.bitsReceived, s.highWord, s.repeatDeadline, s.out)) =
      some (0#6, 0x00FF#16, 1900, { decResult := some .incomplete }) := by
  decide

/-- V-RST, row `n = 32`, Noise. -/
theorem test_noise :
    (after (vectorState 32#6 0x00FF#16 0x314E#16 (some 0x629D#16) 1900 0 0) 2000 0x202309C40#35).map
      (fun s => (s.bitsReceived, s.lowWord, s.repeatDeadline, s.out)) =
      some (0#6, 0x314E#16, 1900, { decResult := some .incomplete }) := by
  decide

/-- V-RTR-3: the old command is released before the new one is pressed; the output port of R77, R78 shows it. -/
theorem test_one_changes_the_command :
    (after (vectorState 31#6 0x00FF#16 0x542B#16 (some 0x629D#16) 1900 0 0) 2000 oneWord).map
      (fun s => (s.out.events, s.activeCommand, s.out.evtReleasedCmd, s.out.evtPressedCmd)) =
      some ([.datagramReady, .released 0x629D#16, .pressed 0xA857#16], some 0xA857#16, some 0x629D#16,
        some 0xA857#16) := by
  decide

/-- V-RTR-7: `none` differs from `some(0x0000)`. -/
theorem test_zero_completes_a_press :
    (after (vectorState 31#6 0x00FF#16 0x0000#16 none 1900 0 0) 2000 zeroWord).map
      (fun s => (s.out.events, s.activeCommand, s.hasNewDatagram)) =
      some ([.datagramReady, .pressed 0x0000#16], some 0x0000#16, true) := by
  decide

/-! ### V-WD -/

/-- V-WD-3: `now = repeatDeadline` is not past. -/
theorem test_wake_at_the_deadline :
    (after (vectorState 0#6 0#16 0#16 (some 0x629D#16) 2336 2300 0) 2336 0x300000000#35).map
      (fun s => (s.out.events, s.activeCommand, s.wdWake)) = some ([], some 0x629D#16, 2456) := by
  decide

/-- V-WD-4: one millisecond later it is, and the next sleep is the Idle one. -/
theorem test_wake_past_the_deadline :
    (after (vectorState 0#6 0#16 0#16 (some 0x629D#16) 2336 2300 0) 2337 0x300000000#35).map
      (fun s => (s.out.events, s.activeCommand, s.wdWake)) = some ([.released 0x629D#16], none, 2577) := by
  decide

/-! ### V-HOST -/

/-- V-HOST-1. -/
theorem test_first_connect :
    after (State.powerUp vectorConfig) 7 0x100000000#35 =
      some { State.powerUp vectorConfig with connected := true, wdWake := 7, now := 7 } := by
  decide

/-- V-HOST-2. -/
theorem test_second_connect :
    after (vectorState 12#6 0x00FF#16 0x0010#16 (some 0x629D#16) 3100 3050 2990) 3000 0x100000000#35 =
      some (vectorState 12#6 0x00FF#16 0x0010#16 (some 0x629D#16) 3100 3050 3000) := by
  decide

/-- V-HOST-3. -/
theorem test_poll :
    (after { vectorState 0#6 0#16 0#16 none 0 0 0 with hasNewDatagram := true } 9 0x400000000#35).map
      (fun s => (s.out.qFlag, s.hasNewDatagram)) = some (some true, false) := by
  decide

/-- The example of R153. -/
theorem test_getcmd :
    (after (vectorState 0#6 0#16 0#16 none 0 0 0) 9 0x500000000#35).map
      (fun s => (s.out.qValid, s.out.qCmd)) = some (some true, some 0x629D#16) := by
  decide

/-- V-HOST-8: both sections, and the flag is not cleared. -/
theorem test_getdgram :
    (after { vectorState 0#6 0#16 0#16 none 0 0 0 with hasNewDatagram := true } 9 0x600000000#35).map
      (fun s => (s.out.qAddr, s.out.qCmd, s.hasNewDatagram)) = some (some 0x00FF#16, some 0x629D#16, true) := by
  decide

/-- V-HOST-9. -/
theorem test_nop :
    after (vectorState 12#6 1#16 2#16 none 3 4 5) 5 0x0FFFFFFFF#35 = some (vectorState 12#6 1#16 2#16 none 3 4 5) := by
  decide

/-- V-HOST-11. -/
theorem test_reserved :
    step { vectorState 12#6 1#16 2#16 none 3 4 5 with inputs := [⟨5, 0x700000000#35⟩] } =
      .refused .reservedOperation := by
  rfl

/-- R207. -/
theorem test_time_backwards :
    step { vectorState 12#6 1#16 2#16 none 3 4 5 with inputs := [⟨4, 0x000000000#35⟩] } =
      .refused .timeRanBackwards := by
  rfl

/-! ### Witnesses: the operation word

Each theorem below names the statement it is for and gives a state and operands that meet all its hypotheses. -/

theorem witness_DecodeOfEncodeIsOperation :
    (Instr.pulseZero 799#16 800#16).wf vectorConfig = true ∧ (Instr.pulseOne 1000#16 1699#16).wf vectorConfig = true ∧
      (Instr.pulseRepeat 9000#16 3499#16).wf vectorConfig = true ∧
      (Instr.pulseStart 9000#16 5499#16).wf vectorConfig = true ∧
      (Instr.pulseNoise 65535#16 65535#16).wf vectorConfig = true ∧ Instr.getdgram.wf vectorConfig = true := by
  decide

theorem witness_VectorWordsDecode :
    vectorConfig.tOne = 1600 ∧ vectorConfig.tRepeat = 2700 ∧ vectorConfig.tStart = 12500 ∧
      vectorConfig.tNoise = 14500 := by
  decide

/-- A word for each clause, the five pulses at the boundaries of their ranges. -/
theorem witness_DecodingFollowsTheAlgorithm :
    ((0x0FFFFFFFF#35).toNat / 2 ^ 32 = 0) ∧ ((0x1DEADBEEF#35).toNat / 2 ^ 32 = 1) ∧
    (∀ w ∈ [0x200000000#35, 0x2031F0320#35], w.toNat / 2 ^ 32 = 2 ∧
      w.toNat / 2 ^ 16 % 2 ^ 16 + w.toNat % 2 ^ 16 < vectorConfig.tOne) ∧
    (∀ w ∈ [0x203200320#35, 0x203E806A3#35], w.toNat / 2 ^ 32 = 2 ∧
      vectorConfig.tOne ≤ w.toNat / 2 ^ 16 % 2 ^ 16 + w.toNat % 2 ^ 16 ∧
      w.toNat / 2 ^ 16 % 2 ^ 16 + w.toNat % 2 ^ 16 < vectorConfig.tRepeat) ∧
    (∀ w ∈ [0x203E806A4#35, 0x223280DAB#35], w.toNat / 2 ^ 32 = 2 ∧
      vectorConfig.tOne ≤ w.toNat / 2 ^ 16 % 2 ^ 16 + w.toNat % 2 ^ 16 ∧
      vectorConfig.tRepeat ≤ w.toNat / 2 ^ 16 % 2 ^ 16 + w.toNat % 2 ^ 16 ∧
      w.toNat / 2 ^ 16 % 2 ^ 16 + w.toNat % 2 ^ 16 < vectorConfig.tStart) ∧
    (∀ w ∈ [0x223280DAC#35, 0x22328157B#35], w.toNat / 2 ^ 32 = 2 ∧
      vectorConfig.tOne ≤ w.toNat / 2 ^ 16 % 2 ^ 16 + w.toNat % 2 ^ 16 ∧
      vectorConfig.tRepeat ≤ w.toNat / 2 ^ 16 % 2 ^ 16 + w.toNat % 2 ^ 16 ∧
      vectorConfig.tStart ≤ w.toNat / 2 ^ 16 % 2 ^ 16 + w.toNat % 2 ^ 16 ∧
      w.toNat / 2 ^ 16 % 2 ^ 16 + w.toNat % 2 ^ 16 < vectorConfig.tNoise) ∧
    (∀ w ∈ [0x22328157C#35, 0x2FFFFFFFF#35], w.toNat / 2 ^ 32 = 2 ∧
      vectorConfig.tOne ≤ w.toNat / 2 ^ 16 % 2 ^ 16 + w.toNat % 2 ^ 16 ∧
      vectorConfig.tRepeat ≤ w.toNat / 2 ^ 16 % 2 ^ 16 + w.toNat % 2 ^ 16 ∧
      vectorConfig.tStart ≤ w.toNat / 2 ^ 16 % 2 ^ 16 + w.toNat % 2 ^ 16 ∧
      vectorConfig.tNoise ≤ w.toNat / 2 ^ 16 % 2 ^ 16 + w.toNat % 2 ^ 16) ∧
    ((0x300000000#35).toNat / 2 ^ 32 = 3) ∧ ((0x4FFFFFFFF#35).toNat / 2 ^ 32 = 4) ∧
    ((0x500000000#35).toNat / 2 ^ 32 = 5) ∧ ((0x600000000#35).toNat / 2 ^ 32 = 6) ∧
    ((0x7FFFFFFFF#35).toNat / 2 ^ 32 = 7) := by
  simp only [List.forall_mem_cons, List.not_mem_nil, false_imp_iff, implies_true, and_true]
  decide

/-- `PULSE 9000 4500` and `PULSE 0 13500` (R72). -/
theorem witness_IntervalIsExactSum :
    opField 0x223281194#35 = 0b010#3 ∧ opField 0x2000034BC#35 = 0b010#3 ∧
      (markField 0x223281194#35).toNat + (spaceField 0x223281194#35).toNat =
        (markField 0x2000034BC#35).toNat + (spaceField 0x2000034BC#35).toNat := by
  decide

/-- The defaults are ordered (R6), and the ten boundary values are one in each end of each range. -/
theorem witness_ClassifierFollowsThresholds :
    (0 < vectorConfig.tOne ∧ vectorConfig.tOne < vectorConfig.tRepeat ∧ vectorConfig.tRepeat < vectorConfig.tStart ∧
      vectorConfig.tStart < vectorConfig.tNoise) ∧
    (0 < vectorConfig.tOne ∧ 1599 < vectorConfig.tOne) ∧
    (vectorConfig.tOne ≤ 1600 ∧ 2699 < vectorConfig.tRepeat) ∧
    (vectorConfig.tRepeat ≤ 2700 ∧ 12499 < vectorConfig.tStart) ∧
    (vectorConfig.tStart ≤ 12500 ∧ 14499 < vectorConfig.tNoise) ∧ vectorConfig.tNoise ≤ 14500 := by
  decide

/-! ### Witnesses: the decoder -/

/-- A state for each clause, at both ends of its range of counts. -/
theorem witness_BitPulseAppends :
    vectorConfig.FrameFits ∧
    (∀ n ∈ [0#6, 15#6], (vectorState n 1#16 2#16 none 0 0 0).connected = true ∧
      (vectorState n 1#16 2#16 none 0 0 0).bitsReceived.toNat < vectorConfig.wordBits) ∧
    (∀ n ∈ [16#6, 30#6], (vectorState n 1#16 2#16 none 0 0 0).connected = true ∧
      vectorConfig.wordBits ≤ (vectorState n 1#16 2#16 none 0 0 0).bitsReceived.toNat ∧
      (vectorState n 1#16 2#16 none 0 0 0).bitsReceived.toNat + 1 < vectorConfig.frameBits) ∧
    (vectorState 31#6 1#16 2#16 none 0 0 0).bitsReceived.toNat + 1 = vectorConfig.frameBits ∧
    vectorConfig.wordBits = 16 ∧
    (vectorState 32#6 1#16 2#16 none 0 0 0).bitsReceived.toNat = vectorConfig.frameBits :=
  ⟨vectorConfig_fits, by decide⟩

/-- The commit clause under a second configuration: eight bits from each accumulator. -/
theorem witness_BitPulseAppends_short :
    shortConfig.FrameFits ∧
      (after { vectorState 15#6 0xAB12#16 0xCD1A#16 none 0 0 0 with cfg := shortConfig } 9 oneWord).map
        (fun s => (s.bitsReceived, s.datagram)) = some (16#6, some ⟨0x12#16, 0x35#16⟩) :=
  ⟨shortConfig_fits, by decide⟩

/-- Both parts: the full count, and a start marker that leaves it. -/
theorem witness_OverrunBitIsDiscarded :
    ∃ s t : State, s.connected = true ∧ s.bitsReceived.toNat = s.cfg.frameBits ∧ exec (.pulseStart 9000#16 4500#16) s = .next t ∧
      t.bitsReceived ≠ s.bitsReceived :=
  ⟨vectorState 32#6 1#16 2#16 none 0 0 0, _, rfl, rfl, rfl, by decide⟩

theorem witness_RepeatResetsCountAndRefreshesDeadline :
    (∀ p ∈ [(1000#16, 1700#16), (9000#16, 3499#16)], vectorConfig.tOne < vectorConfig.tRepeat ∧
      vectorConfig.tRepeat ≤ p.1.toNat + p.2.toNat ∧ p.1.toNat + p.2.toNat < vectorConfig.tStart) ∧
      (vectorState 5#6 1#16 2#16 none 0 0 0).connected = true := by
  simp only [List.forall_mem_cons, List.not_mem_nil, false_imp_iff, implies_true, and_true]
  decide

theorem witness_StartAndNoiseResetCountOnly :
    (∀ p ∈ [(9000#16, 3500#16), (9000#16, 5499#16), (9000#16, 5500#16), (65535#16, 65535#16)],
      vectorConfig.tOne < vectorConfig.tRepeat ∧ vectorConfig.tRepeat < vectorConfig.tStart ∧
      vectorConfig.tStart < vectorConfig.tNoise ∧ vectorConfig.tStart ≤ p.1.toNat + p.2.toNat) ∧
      (vectorState 5#6 1#16 2#16 none 0 0 0).connected = true := by
  simp only [List.forall_mem_cons, List.not_mem_nil, false_imp_iff, implies_true, and_true]
  decide

theorem witness_UnconnectedPulseChangesNothing :
    (Instr.pulseOne 560#16 1690#16).isPulse = true ∧ (Instr.pulseNoise 560#16 40000#16).isPulse = true ∧
      State.reset.connected = false := by
  refine ⟨?_, ?_, ?_⟩ <;> rfl

/-- A boundary pulse, and bits at 30, 31 and 32. -/
theorem witness_DecoderTransitionTable :
    (∃ s t : State, s.connected = true ∧ s.cfg.FrameFits ∧
      s.bitsReceived.toNat ≤ s.cfg.frameBits ∧ (Instr.pulseRepeat 9000#16 2250#16).isPulse = true ∧ exec (.pulseRepeat 9000#16 2250#16) s = .next t ∧
      (Instr.pulseRepeat 9000#16 2250#16).isBoundary = true) ∧
    ∀ n ∈ [30#6, 31#6, 32#6], ∃ s t : State, s.bitsReceived = n ∧ s.connected = true ∧ s.cfg.FrameFits ∧
      s.bitsReceived.toNat ≤ s.cfg.frameBits ∧ (Instr.pulseOne 560#16 1690#16).isPulse = true ∧ exec (.pulseOne 560#16 1690#16) s = .next t ∧
      (Instr.pulseOne 560#16 1690#16).isBoundary = false := by
  refine ⟨⟨vectorState 32#6 1#16 2#16 none 0 0 0, _, rfl, vectorConfig_fits, by decide, rfl, rfl, rfl⟩, fun n hn => ?_⟩
  refine ⟨vectorState n 1#16 2#16 none 0 0 0, _, rfl, rfl, vectorConfig_fits, ?_, rfl, rfl, rfl⟩
  revert n
  decide

theorem witness_OnlyTheThirtySecondBitWritesTheDatagram :
    ∃ s t : State, s.connected = true ∧ exec (.pulseOne 560#16 1690#16) s = .next t ∧ t.datagram ≠ s.datagram :=
  ⟨vectorState 31#6 0x12ED#16 0x205F#16 none 0 0 0, _, rfl, rfl, by decide⟩

/-- Two states that differ in the time, the buttons, the timers and the configuration. -/
theorem witness_DecoderReadsOnlyItsOwnState :
    ∃ s s' t t' : State, s ≠ s' ∧ (Instr.pulseOne 560#16 1690#16).isPulse = true ∧ s.connected = s'.connected ∧
      s.bitsReceived = s'.bitsReceived ∧ s.highWord = s'.highWord ∧ s.lowWord = s'.lowWord ∧
      s.cfg.frameBits = s'.cfg.frameBits ∧ s.cfg.wordBits = s'.cfg.wordBits ∧
      exec (.pulseOne 560#16 1690#16) s = .next t ∧ exec (.pulseOne 560#16 1690#16) s' = .next t' :=
  ⟨vectorState 31#6 0x00FF#16 0x314E#16 none 0 0 0,
    { vectorState 31#6 0x00FF#16 0x314E#16 (some 1#16) 5 6 7 with cfg := { vectorConfig with targetAddress := 1#16 } },
    _, _, by decide, rfl, rfl, rfl, rfl, rfl, rfl, rfl, rfl, rfl⟩

/-- Two bits with a poll and a wake between them. -/
def partialRun : State :=
  { vectorState 0#6 0x0ABC#16 0x0DEF#16 none 0 0 1000 with
    inputs := [oneWord, 0x400000000#35, 0x300000000#35, zeroWord].map (Input.mk 1000) }

theorem witness_PartialFrameCommitsNothing :
    partialRun.connected = true ∧ partialRun.cfg.FrameFits ∧ partialRun.bitsReceived = 0#6 ∧
      timesFrom partialRun.now partialRun.inputs ∧
      (∀ i ∈ partialRun.operations, i.isBoundary = false ∧ i ≠ .reserved) ∧ partialRun.bitsOffered.length < partialRun.cfg.frameBits :=
  ⟨rfl, vectorConfig_fits, rfl, timesFrom_const _ _, by decide, by decide⟩

/-- Thirty-one bits: the greatest number that commits nothing. -/
def almostFullRun : State :=
  { vectorState 0#6 0#16 0#16 none 0 0 0 with inputs := (List.replicate 31 oneWord).map (Input.mk 0) }

theorem witness_PartialFrameCommitsNothing_at_31 :
    almostFullRun.connected = true ∧ almostFullRun.cfg.FrameFits ∧ almostFullRun.bitsReceived = 0#6 ∧
      timesFrom almostFullRun.now almostFullRun.inputs ∧
      (∀ i ∈ almostFullRun.operations, i.isBoundary = false ∧ i ≠ .reserved) ∧
      almostFullRun.bitsOffered.length + 1 = almostFullRun.cfg.frameBits :=
  ⟨rfl, vectorConfig_fits, rfl, timesFrom_const _ _, by decide, by decide⟩

/-- The bits of (0x00FF, 0x629D), with a wake among them. -/
def fullRun : State :=
  { vectorState 0#6 0x0ABC#16 0x0DEF#16 none 0 0 0 with
    inputs := (bits16Words 0x00FF#16 ++ 0x300000000#35 :: bits16Words 0x629D#16).map (Input.mk 0) }

theorem witness_ThirtyTwoBitsCommitTheirDatagram :
    fullRun.connected = true ∧ fullRun.cfg.FrameFits ∧ fullRun.bitsReceived = 0#6 ∧
      timesFrom fullRun.now fullRun.inputs ∧
      (∀ i ∈ fullRun.operations, i.isBoundary = false ∧ i ≠ .reserved) ∧ fullRun.bitsOffered.length = fullRun.cfg.frameBits :=
  ⟨rfl, vectorConfig_fits, rfl, timesFrom_const _ _, by decide, by decide⟩

/-- `FRAME 0x12ED 0x40BF` (P3). -/
def frameRun : State :=
  { vectorState 7#6 0x0ABC#16 0x0DEF#16 none 0 0 0 with inputs := (frameWords 0x12ED#16 0x40BF#16).map (Input.mk 0) }

theorem witness_FrameShorthandCommits :
    frameRun.connected = true ∧ frameRun.cfg.tOne = 1600 ∧ frameRun.cfg.tRepeat = 2700 ∧ frameRun.cfg.tStart = 12500 ∧
      frameRun.cfg.tNoise = 14500 ∧ frameRun.cfg.frameBits = 32 ∧ frameRun.cfg.wordBits = 16 ∧ (List.replicate 33 0).length = 33 ∧
      frameRun.inputs = List.zipWith Input.mk (List.replicate 33 0) (frameWords 0x12ED#16 0x40BF#16) ∧
      timesFrom frameRun.now frameRun.inputs :=
  ⟨rfl, rfl, rfl, rfl, rfl, rfl, rfl, by decide, (zipWith_replicate 0 (frameWords 0x12ED#16 0x40BF#16)).symm,
    timesFrom_const _ _⟩

/-! ### Witnesses: the router -/

theorem witness_ForeignDatagramLeavesTheButton :
    vectorConfig.FrameFits ∧
      let s := vectorState 31#6 0x12ED#16 0x542B#16 (some 0x629D#16) 1900 0 2000
      s.connected = true ∧ s.bitsReceived.toNat + 1 = s.cfg.frameBits ∧
        s.cfg.sectionOf s.highWord.toNat ≠ s.cfg.targetAddress :=
  ⟨vectorConfig_fits, by decide⟩

theorem witness_SameCommandRaisesNothing :
    vectorConfig.FrameFits ∧
      let s := vectorState 31#6 0x00FF#16 0x314E#16 (some 0x629D#16) 1900 0 2000
      s.connected = true ∧ s.bitsReceived.toNat + 1 = s.cfg.frameBits ∧
        s.cfg.sectionOf s.highWord.toNat = s.cfg.targetAddress ∧
        s.activeCommand = some (s.cfg.sectionOf (2 * s.lowWord.toNat + true.toNat)) :=
  ⟨vectorConfig_fits, by decide⟩

/-- With no button held, and with another one held. -/
theorem witness_CommandChangeReleasesThenPresses :
    vectorConfig.FrameFits ∧
      (∀ a ∈ [none, some 0x629D#16],
        let s := vectorState 31#6 0x00FF#16 0x542B#16 a 1900 0 2000
        s.connected = true ∧ s.bitsReceived.toNat + 1 = s.cfg.frameBits ∧
        s.cfg.sectionOf s.highWord.toNat = s.cfg.targetAddress ∧
          s.activeCommand ≠ some (s.cfg.sectionOf (2 * s.lowWord.toNat + true.toNat))) :=
  ⟨vectorConfig_fits, by
    simp only [List.forall_mem_cons, List.not_mem_nil, false_imp_iff, implies_true, and_true]
    decide⟩

/-- A pulse, a wake, and another operation, each with a next state; the pulse raises three events, the wake one. -/
theorem witness_EventListsOfAStep :
    (∃ s t : State, exec (.pulseOne 560#16 1690#16) s = .next t ∧ t.out.events.length = 3) ∧
    (∃ s t : State, exec .wdwake s = .next t ∧ t.out.events.length = 1) ∧
    (∃ s t : State, exec .pollrx s = .next t ∧ Instr.pollrx.isPulse = false) :=
  ⟨⟨vectorState 31#6 0x00FF#16 0x542B#16 (some 0x629D#16) 1900 0 2000, _, rfl, by decide⟩,
    ⟨vectorState 0#6 0#16 0#16 (some 0x629D#16) 1900 0 2000, _, rfl, by decide⟩,
    ⟨vectorState 0#6 0#16 0#16 none 0 0 0, _, rfl, rfl⟩⟩

/-- A Repeat, a DatagramReady, and an Incomplete. -/
theorem witness_DeadlineFollowsTheResult :
    (∃ s t : State, exec (.pulseRepeat 9000#16 2250#16) s = .next t ∧ t.out.decResult = some .repeatMarker) ∧
    (∃ s t : State, exec (.pulseOne 560#16 1690#16) s = .next t ∧ t.out.decResult = some .datagramReady) ∧
    (∃ s t : State, exec (.pulseStart 9000#16 4500#16) s = .next t ∧ t.out.decResult ≠ some .datagramReady ∧
      t.out.decResult ≠ some .repeatMarker) :=
  ⟨⟨vectorState 5#6 0#16 0#16 none 0 0 0, _, rfl, by decide⟩,
    ⟨vectorState 31#6 0x00FF#16 0x314E#16 none 0 0 0, _, rfl, by decide⟩,
    ⟨vectorState 5#6 0#16 0#16 none 0 0 0, _, rfl, by decide, by decide⟩⟩

/-- A state with a button held since 2000, which meets every invariant. -/
def heldState : State := vectorState 31#6 0x00FF#16 0x542B#16 (some 0x629D#16) 2120 2240 2000

theorem heldState_inv : heldState.Inv :=
  ⟨by decide, by decide, by decide, by decide, by decide, by decide⟩

theorem heldState_sleepInv : heldState.SleepInv := ⟨by decide, by decide⟩

/-- A command change and a wake that comes too early: two steps. -/
def changingRun : State :=
  { heldState with inputs := [oneWord, 0x300000000#35].map (Input.mk 2000) }

theorem witness_ButtonEventsAlternate : ∃ t, changingRun.Inv ∧ runSteps 2 changingRun = .next t :=
  ⟨_, ⟨by decide, by decide, by decide, by decide, by decide, by decide⟩, rfl⟩

/-! ### Witnesses: the watchdog -/

theorem witness_IdleWakeSleepsLong :
    opField 0x300000000#35 = 0b011#3 ∧
      let s := vectorState 0#6 0#16 0#16 none 0 1000 1000
      s.connected = true ∧ s.wdWake ≤ s.now ∧ s.activeCommand = none := by
  decide

theorem witness_ExpiredWakeReleases :
    opField 0x300000000#35 = 0b011#3 ∧
      let s := vectorState 0#6 0#16 0#16 (some 0x629D#16) 2336 2300 2337
      s.connected = true ∧ s.wdWake ≤ s.now ∧ s.activeCommand = some 0x629D#16 ∧ s.repeatDeadline < s.now := by
  decide

theorem witness_AliveWakeSleepsAgain :
    opField 0x300000000#35 = 0b011#3 ∧
      let s := vectorState 0#6 0#16 0#16 (some 0x629D#16) 2336 2300 2336
      s.connected = true ∧ s.wdWake ≤ s.now ∧ s.activeCommand = some 0x629D#16 ∧ s.now ≤ s.repeatDeadline := by
  decide

/-- V-WD-7 and V-WD-6. -/
theorem witness_EarlyOrUnconnectedWakeDoesNothing :
    (State.powerUp vectorConfig).connected = false ∧
      (vectorState 0#6 0#16 0#16 (some 0x629D#16) 2336 2480 2479).now <
        (vectorState 0#6 0#16 0#16 (some 0x629D#16) 2336 2480 2479).wdWake := by
  decide

/-- Two states that differ in DecoderState and the received flag. -/
theorem witness_WatchdogTouchesOnlyButtonState :
    ∃ s s' t t' : State, s ≠ s' ∧ s.connected = s'.connected ∧ s.activeCommand = s'.activeCommand ∧
      s.repeatDeadline = s'.repeatDeadline ∧ s.wdWake = s'.wdWake ∧ s.now = s'.now ∧ s.cfg = s'.cfg ∧
      exec .wdwake s = .next t ∧ exec .wdwake s' = .next t' :=
  ⟨vectorState 0#6 0#16 0#16 (some 0x629D#16) 1900 0 2000,
    { vectorState 9#6 1#16 2#16 (some 0x629D#16) 1900 0 2000 with hasNewDatagram := true },
    _, _, by decide, rfl, rfl, rfl, rfl, rfl, rfl, rfl, rfl⟩

/-- A press, and a release by timeout. -/
theorem witness_ModeTransitions :
    (∃ s t : State, s.connected = true ∧ exec (.pulseOne 560#16 1690#16) s = .next t ∧ s.mode = .idle ∧
      t.mode = .tracking) ∧
    (∃ s t : State, s.connected = true ∧ exec .wdwake s = .next t ∧ s.mode = .tracking ∧ t.mode = .idle) :=
  ⟨⟨vectorState 31#6 0x00FF#16 0x314E#16 none 0 0 2000, _, rfl, rfl, by decide, by decide⟩,
    ⟨vectorState 0#6 0#16 0#16 (some 0x629D#16) 1900 0 2000, _, rfl, rfl, by decide, by decide⟩⟩

/-- A release by the router, and one by the watchdog. -/
theorem witness_OneReleasePerPress :
    (∃ s t : State, exec (.pulseOne 560#16 1690#16) s = .next t ∧ Event.released 0x629D#16 ∈ t.out.events) ∧
    (∃ s t : State, exec .wdwake s = .next t ∧ Event.released 0x629D#16 ∈ t.out.events) :=
  ⟨⟨vectorState 31#6 0x00FF#16 0x542B#16 (some 0x629D#16) 1900 0 2000, _, rfl, by decide⟩,
    ⟨vectorState 0#6 0#16 0#16 (some 0x629D#16) 1900 0 2000, _, rfl, by decide⟩⟩

/-- The latest release from Idle of spec/95_test_vectors.md (V-WD), then a `NOP` after the bound. -/
def latestRelease : State :=
  { vectorState 32#6 0x00FF#16 0x629D#16 (some 0x629D#16) 1120 1240 1000 with
    inputs := [⟨1240, 0x300000000#35⟩, ⟨1241, 0x000000000#35⟩] }

theorem witness_ReleaseComesWithinTheBound :
    ∃ t, latestRelease.Inv ∧ latestRelease.SleepInv ∧ latestRelease.activeCommand = some 0x629D#16 ∧
      latestRelease.repeatDeadline = latestRelease.now + latestRelease.cfg.repeatWindow ∧
      latestRelease.cfg.wdSlack = some 0 ∧ onSchedule 0 2 latestRelease ∧ noRefresh 2 latestRelease ∧
      runSteps 2 latestRelease = .next t ∧
      latestRelease.repeatDeadline + latestRelease.cfg.releaseLag + 0 < t.now :=
  ⟨_, ⟨by decide, by decide, by decide, by decide, by decide, by decide⟩, ⟨by decide, by decide⟩, rfl, rfl, rfl,
    onSchedule_of_step rfl (by decide) rfl (onSchedule_of_step rfl (by decide) rfl trivial),
    noRefresh_of_step rfl (by decide) (by decide) (noRefresh_of_step rfl (by decide) (by decide) trivial),
    rfl, by decide⟩

/-- An infinite run of wakes, one a second. -/
def wakeEverySecond (k : Nat) : Input := ⟨1000 * (k + 1), 0x300000000#35⟩

/-- Its states: the button held at time 0 is released by the first wake. -/
def wakeStates : Nat → State
  | 0 => vectorState 0#6 0#16 0#16 (some 0x629D#16) 120 0 0
  | 1 => { vectorState 0#6 0#16 0#16 none 120 1240 1000 with out := { events := [.released 0x629D#16] } }
  | k + 2 => vectorState 0#6 0#16 0#16 none 120 (1000 * (k + 2) + 240) (1000 * (k + 2))

theorem wakeStates_step (k : Nat) :
    step { wakeStates k with inputs := [wakeEverySecond k] } = .next (wakeStates (k + 1)) := by
  have idle : ∀ (s : State) (t : Nat), s.connected = true → s.cfg = vectorConfig → s.activeCommand = none →
      s.now ≤ t → s.wdWake ≤ t →
      step { s with inputs := [⟨t, 0x300000000#35⟩] } =
        .next { s with now := t, wdWake := t + 240, inputs := [], out := {} } := by
    intro s t hc hg ha hn hw
    have hd : decode vectorConfig 0x300000000#35 = .wdwake := by decide
    have hv : vectorConfig.wdIdleSleep = 240 := rfl
    simp [step, offered, Nat.not_lt.mpr hn, State.takeInput, hg, hd, exec, execWdwake, wakeEnabled, hc, hw,
      wakePass, ha, State.clearOut, State.sleepFor, hv]
  match k with
  | 0 => rfl
  | 1 => exact idle (wakeStates 1) 2000 rfl rfl rfl (by decide) (by decide)
  | k + 2 =>
    exact idle (wakeStates (k + 2)) (1000 * (k + 3)) rfl rfl rfl (Nat.mul_le_mul_left _ (by omega))
      (show 1000 * (k + 2) + 240 ≤ 1000 * (k + 3) by omega)

theorem witness_FairWatchdogReleases :
    IsRun wakeEverySecond wakeStates ∧ (wakeStates 0).Inv ∧ (wakeStates 0).activeCommand = some 0x629D#16 ∧
      TimeDiverges wakeEverySecond ∧ WakeFair wakeEverySecond wakeStates ∧ NeverRefreshed wakeStates := by
  have hcfg : ∀ k, (wakeStates k).cfg = vectorConfig := by
    intro k
    match k with
    | 0 => rfl
    | 1 => rfl
    | k + 2 => rfl
  refine ⟨wakeStates_step, ⟨by decide, by decide, by decide, by decide, by decide, by decide⟩, rfl,
    fun T => ⟨T, show T ≤ 1000 * (T + 1) by omega⟩, fun k _ => ⟨k, Nat.le_refl k, ?_⟩, fun k => ?_⟩
  · rw [hcfg]
    exact (by decide : decode vectorConfig 0x300000000#35 = .wdwake)
  · match k with
    | 0 => decide
    | k + 1 => exact ⟨nofun, nofun⟩

/-! ### Witnesses: the consumer -/

theorem witness_FirstConnectCreatesTheState :
    opField 0x1DEADBEEF#35 = 0b001#3 ∧ (State.powerUp vectorConfig).connected = false := by
  decide

theorem witness_SecondConnectIsNoOp : opField 0x100000000#35 = 0b001#3 ∧ heldState.connected = true := by
  decide

theorem witness_GetCommandReadsTheDatagram :
    opField 0x500000000#35 = 0b101#3 ∧ heldState.datagram = some ⟨0x00FF#16, 0x629D#16⟩ ∧
      (State.powerUp vectorConfig).datagram = none := by
  decide

theorem witness_GetDatagramReadsBothSections :
    opField 0x600000000#35 = 0b110#3 ∧ heldState.datagram = some ⟨0x00FF#16, 0x629D#16⟩ ∧
      (State.powerUp vectorConfig).datagram = none := by
  decide

theorem witness_PollTakesAndClears : opField 0x4FFFFFFFF#35 = 0b100#3 := by decide

theorem witness_NopChangesNothing : opField 0x0FFFFFFFF#35 = 0b000#3 := by decide

theorem witness_ReservedCodeIsRefused : opField 0x7FFFFFFFF#35 = 0b111#3 := by decide

theorem witness_QueriesBeforeConnect :
    (State.powerUp vectorConfig).Inv ∧ (State.powerUp vectorConfig).connected = false :=
  ⟨⟨by decide, by decide, by decide, by decide, by decide, by decide⟩, rfl⟩

/-! ### Witnesses: the machine -/

/-- The time may stand still. -/
theorem witness_StepRunsTheOfferedOperation :
    changingRun.inputs = ⟨2000, oneWord⟩ :: [⟨2000, 0x300000000#35⟩] ∧ changingRun.now ≤ 2000 := by
  decide

/-- One part each: an input one millisecond back, and nothing offered. -/
theorem witness_TimeMustNotRunBackwards :
    ({ heldState with inputs := [⟨1999, oneWord⟩] } : State).inputs = ⟨1999, oneWord⟩ :: [] ∧
      1999 < heldState.now ∧ heldState.inputs = [] := by
  decide

/-- The two sides: a step with a next state on a pair, and with nothing offered; and the two ways the right side fails. -/
theorem witness_EveryOfferedStepCompletes :
    (∃ t, step changingRun = .next t) ∧ (∃ t, step heldState = .next t) ∧ heldState.inputs = [] ∧
      changingRun.now ≤ 2000 ∧ oneWord.toNat / 2 ^ 32 ≠ 7 ∧
      step { heldState with inputs := [⟨1999, oneWord⟩] } = .refused .timeRanBackwards ∧
      step { heldState with inputs := [⟨2000, 0x7FFFFFFFF#35⟩] } = .refused .reservedOperation :=
  ⟨⟨_, rfl⟩, ⟨_, rfl⟩, rfl, by decide, by decide, rfl, rfl⟩

/-- A step as the premises of NothingIsUndone, StepKeepsTheInvariants and StepKeepsTheSleepBounds ask for it. -/
theorem witness_StepKeepsTheInvariants :
    ∃ t, changingRun.Inv ∧ changingRun.SleepInv ∧ step changingRun = .next t ∧ changingRun.connected = true ∧
      changingRun.datagram ≠ none :=
  ⟨_, ⟨by decide, by decide, by decide, by decide, by decide, by decide⟩, ⟨by decide, by decide⟩, rfl, rfl,
    by decide⟩

/-- The pre-state of the arbitration example of spec/95_test_vectors.md. -/
theorem witness_ArbitrationOrderShows :
    vectorConfig.FrameFits ∧
      let s := vectorState 31#6 0x00FF#16 0x314E#16 (some 0x629D#16) 1900 1990 2000
      s.connected = true ∧ s.bitsReceived.toNat + 1 = s.cfg.frameBits ∧
        s.cfg.sectionOf s.highWord.toNat = s.cfg.targetAddress ∧
        0x629D#16 = s.cfg.sectionOf (2 * s.lowWord.toNat + true.toNat) ∧ s.activeCommand = some 0x629D#16 ∧
        s.wdWake ≤ s.now ∧ s.repeatDeadline < s.now :=
  ⟨vectorConfig_fits, by decide⟩

/-- A pulse, a wake in a connected state, and a query. -/
theorem witness_OperationFrames :
    (∃ t, exec (.pulseOne 560#16 1690#16) heldState = .next t) ∧
    (∃ t, exec .wdwake heldState = .next t ∧ Instr.wdwake.isPulse = false ∧ heldState.connected = true) ∧
    (∃ t, exec .getcmd heldState = .next t ∧ Instr.getcmd ≠ .pollrx) :=
  ⟨⟨_, rfl⟩, ⟨_, rfl, rfl, rfl⟩, ⟨_, rfl, by decide⟩⟩

end Sys2Proof.Tests
end

section
/-! PROOFS. The scope (spec/00_scope.md): the operation a step runs, and the configuration in force after reset. -/

namespace Sys2Proof.Machine

open Sys2Proof

/-! ### The operation offered next -/

/-- R7, R82: the step on a pair that does not run back in time, with the pair taken from the run. -/
theorem step_cons {s : State} {i : Input} {rest : List Input} (h : s.inputs = i :: rest)
    (ht : s.now ≤ i.now) : step s = exec (decode s.cfg i.word) (s.takeInput i rest) := by
  simp only [step, offered_cons h ht, State.takeInput_cfg]

/-- Settles O41: the run offers the pair (`offered_cons`), and taking it sets the time and the rest of the run and
nothing else. -/
theorem stepRunsTheOfferedOperation : Obligations.StepRunsTheOfferedOperation := by
  intro s i rest h ht
  exact step_cons h ht

/-! ### The defaults -/

theorem reference_ordered : Config.reference.Ordered where
  one_pos := by decide
  one_lt_repeat := by decide
  repeat_lt_start := by decide
  start_lt_noise := by decide
  window_pos := by decide
  track_pos := by decide
  idle_pos := by decide

theorem reference_fits : Config.reference.FrameFits where
  frame_eq := rfl
  word_pos := by decide
  word_le := by decide

theorem reset_cfg : State.reset.cfg = Config.reference := rfl

/-- Settles O51: the configuration after reset is `Config.reference`, each of whose closed parameters is its default. -/
theorem resetHoldsTheDefaults : Obligations.ResetHoldsTheDefaults := by
  unfold Obligations.ResetHoldsTheDefaults
  rw [reset_cfg]
  exact ⟨rfl, rfl, rfl, rfl, rfl, rfl, rfl, rfl, rfl, reference_ordered, reference_fits⟩

end Sys2Proof.Machine
end

section
/-! PROOFS. The state (spec/10_state.md): the reachable-state invariants of R41, the only writer of the datagram, what no
step undoes, and what a wake reads and writes. -/

namespace Sys2Proof.Machine

open Sys2Proof

/-! ### The invariants, one rule per state operation -/

/-- A state at a frame boundary with nothing received and nothing held meets the invariants. -/
theorem State.Inv.of_blank {s : State} (hn : s.bitsReceived = 0#6) (hd : s.datagram = none)
    (hf : s.hasNewDatagram = false) (ha : s.activeCommand = none) : s.Inv where
  count_le := by simp [hn]
  unconnected _ := ⟨hn, hd, hf, ha⟩
  received_valid h := by simp [hf] at h
  active_valid h := absurd ha h
  deadline_written h := absurd ha h
  deadline_past h := absurd ha h

/-- The invariants do not read the accumulators, the watchdog's timer or the outputs. -/
theorem State.Inv.setUnread {s : State} (h : s.Inv) (high low : Word) (wake : Nat) (o : Output) :
    State.Inv { s with highWord := high, lowWord := low, wdWake := wake, out := o } :=
  ⟨h.count_le, h.unconnected, h.received_valid, h.active_valid, h.deadline_written, h.deadline_past⟩

theorem State.Inv.setCount {s : State} (h : s.Inv) (hc : s.connected = true) {n : Count}
    (hn : n.toNat ≤ s.cfg.frameBits) : (s.setCount n).Inv :=
  { h with
    count_le := hn
    unconnected := fun hu => absurd (hc.symm.trans hu) (by decide) }

theorem State.Inv.refreshDeadline {s : State} (h : s.Inv) : s.refreshDeadline.Inv :=
  { h with
    deadline_written := fun _ => Nat.le_add_left _ _
    deadline_past := fun _ => Nat.le_refl _ }

theorem State.Inv.setActive_none {s : State} (h : s.Inv) : (s.setActive none).Inv :=
  { h with
    unconnected := fun hu => by
      obtain ⟨hn, hd, hf, -⟩ := h.unconnected hu
      exact ⟨hn, hd, hf, rfl⟩
    active_valid := fun ha => absurd rfl ha
    deadline_written := fun ha => absurd rfl ha
    deadline_past := fun ha => absurd rfl ha }

theorem State.Inv.setReceived_false {s : State} (h : s.Inv) : (s.setReceived false).Inv :=
  { h with
    unconnected := fun hu => by
      obtain ⟨hn, hd, -, ha⟩ := h.unconnected hu
      exact ⟨hn, hd, rfl, ha⟩
    received_valid := nofun }

/-- The time of the deadline's writing stays in the past, since time does not decrease. -/
theorem State.Inv.takeInput {s : State} (h : s.Inv) {i : Input} (ht : s.now ≤ i.now) (rest : List Input) :
    (s.takeInput i rest).Inv :=
  { h with deadline_past := fun ha => (h.deadline_past ha).trans (Nat.add_le_add_right ht _) }

/-! ### The invariants of a step -/

/-- The count after an accepted bit is at most one more, wrap or not. -/
theorem count_succ_toNat_le (n : Count) : (n + 1).toNat ≤ n.toNat + 1 := by
  rw [count_succ_eq_ofNat, BitVec.toNat_ofNat]
  exact Nat.mod_le _ _

/-- R41 (i) to (iv) for every operation, by its effect. -/
theorem exec_keeps_inv {i : Instr} {s t : State} (hs : s.Inv) (h : exec i s = .next t) : t.Inv := by
  cases exec_effect h with
  | unconnectedPulse | overrunBit | wakeTurnedAway | wakeIdle | wakeAlive | connectAgain | nop | getcmd
  | getdgram => exact hs.setUnread _ _ _ _
  | highBit _ _ hc hf => exact (hs.setCount hc ((count_succ_toNat_le _).trans hf)).setUnread _ _ _ _
  | lowBit _ _ hc _ hf => exact (hs.setCount hc ((count_succ_toNat_le _).trans hf.le)).setUnread _ _ _ _
  | lastBit _ _ _ _ hc =>
    exact {
      count_le := by
        rw [BitVec.toNat_ofNat]
        exact Nat.mod_le _ _
      unconnected := fun hu => absurd (hc.symm.trans hu) (by decide)
      received_valid := fun _ => Option.some_ne_none _
      active_valid := fun _ => Option.some_ne_none _
      deadline_written := fun _ => Nat.le_add_left _ _
      deadline_past := fun _ => Nat.le_refl _ }
  | repeatMarker _ _ _ hc => exact ((hs.setCount (n := 0#6) hc (Nat.zero_le _)).refreshDeadline).setUnread _ _ _ _
  | startOrNoise _ _ _ hc => exact (hs.setCount (n := 0#6) hc (Nat.zero_le _)).setUnread _ _ _ _
  | wakeExpired => exact hs.setActive_none.setUnread _ _ _ _
  | connectFirst => exact .of_blank rfl rfl rfl rfl
  | pollrx => exact hs.setReceived_false.setUnread _ _ _ _

/-- Settles O45: taking the offered pair keeps the invariants (`State.Inv.takeInput`), and so does every operation
(`exec_keeps_inv`). -/
theorem stepKeepsTheInvariants : Obligations.StepKeepsTheInvariants := by
  intro s t hs h
  rcases step_cases h with ⟨-, rfl⟩ | ⟨i, rest, -, ht, hx⟩
  · exact hs.setUnread _ _ _ _
  · exact exec_keeps_inv (hs.takeInput ht rest) hx

/-- Settles O46: after reset nothing has been received and nothing is held, and the bounds on the pending sleep speak of
connected or held states. -/
theorem resetMeetsTheInvariants : Obligations.ResetMeetsTheInvariants :=
  fun _ => ⟨.of_blank rfl rfl rfl rfl, ⟨nofun, fun ha => absurd rfl ha⟩⟩

/-! ### The datagram -/

/-- Settles O13: of the effects, only the last bit of a frame and the first `CONNECT` write the datagram, and the latter
does not happen in a connected state. -/
theorem onlyTheThirtySecondBitWritesTheDatagram : Obligations.OnlyTheThirtySecondBitWritesTheDatagram := by
  intro s t i hc h hd
  cases exec_effect h with
  | lastBit bit _ _ hi _ _ hn =>
    exact ⟨bit, hi, hn, rfl, congrArg some (committed_eq bit s), rfl, rfl, List.mem_cons_self⟩
  | connectFirst _ hu => exact absurd (hc.symm.trans hu) (by decide)
  | _ => exact absurd rfl hd

/-! ### What no step undoes -/

theorem exec_keeps_connected {i : Instr} {s t : State} (h : exec i s = .next t) (hc : s.connected = true) :
    t.connected = true := by
  cases exec_effect h with
  | connectFirst => rfl
  | _ => exact hc

/-- Once connected, a datagram is replaced only by another one. -/
theorem exec_keeps_datagram {i : Instr} {s t : State} (h : exec i s = .next t) (hc : s.connected = true)
    (hd : s.datagram ≠ none) : t.datagram ≠ none := by
  by_cases hw : t.datagram = s.datagram
  · exact hw ▸ hd
  · obtain ⟨_, _, _, _, hcommit, _⟩ := onlyTheThirtySecondBitWritesTheDatagram s t i hc h hw
    exact hcommit ▸ Option.some_ne_none _

/-- Settles O44: the pair taken does not run back in time, and no operation writes the time or the configuration
(`exec_keeps`). -/
theorem nothingIsUndone : Obligations.NothingIsUndone := by
  intro s t h
  rcases step_cases h with ⟨-, rfl⟩ | ⟨i, rest, -, ht, hx⟩
  · exact ⟨rfl, Nat.le_refl _, id, fun _ => id⟩
  · obtain ⟨hnow, -, hcfg⟩ := exec_keeps hx
    exact ⟨hcfg, hnow ▸ ht, exec_keeps_connected (s := s.takeInput i rest) hx,
      exec_keeps_datagram (s := s.takeInput i rest) hx⟩

/-! ### The wake -/

theorem wakePass_idle {s : State} (ha : s.activeCommand = none) :
    wakePass s = s.sleepFor s.cfg.wdIdleSleep := by
  simp [wakePass, ha]

theorem wakePass_expired {s : State} {c : Word} (ha : s.activeCommand = some c)
    (hd : s.repeatDeadline < s.now) :
    wakePass s = ((s.emit (.released c)).setActive none).sleepFor s.cfg.wdIdleSleep := by
  simp [wakePass, ha, hd]

theorem wakePass_alive {s : State} {c : Word} (ha : s.activeCommand = some c)
    (hd : s.now ≤ s.repeatDeadline) : wakePass s = s.sleepFor s.cfg.wdTrackSleep := by
  simp [wakePass, ha, Nat.not_lt.mpr hd]

/-- A wake that its guard lets through is one pass. -/
theorem exec_wdwake_enabled {s : State} (hc : s.connected = true) (hw : s.wdWake ≤ s.now) :
    exec .wdwake s = .next (wakePass s.clearOut) :=
  congrArg Host.Outcome.next (if_pos ((wakeEnabled_iff s).mpr ⟨hc, hw⟩))

theorem exec_wdwake_turnedAway {s : State} (h : s.connected = false ∨ s.now < s.wdWake) :
    exec .wdwake s = .next { s with out := {} } := by
  have hg : ¬ wakeEnabled s = true := by
    rw [wakeEnabled_iff, not_and_or, Bool.not_eq_true, Nat.not_le]
    exact h
  exact congrArg Host.Outcome.next (if_neg hg)

theorem exec_wdwake_idle {s : State} (hc : s.connected = true) (hw : s.wdWake ≤ s.now)
    (ha : s.activeCommand = none) :
    exec .wdwake s = .next { s with wdWake := s.now + s.cfg.wdIdleSleep, out := {} } :=
  (exec_wdwake_enabled hc hw).trans (congrArg Host.Outcome.next (wakePass_idle ha))

theorem exec_wdwake_expired {s : State} {c : Word} (hc : s.connected = true) (hw : s.wdWake ≤ s.now)
    (ha : s.activeCommand = some c) (hd : s.repeatDeadline < s.now) :
    exec .wdwake s = .next { s with
      activeCommand := none
      wdWake := s.now + s.cfg.wdIdleSleep
      out := { events := [.released c] } } :=
  (exec_wdwake_enabled hc hw).trans (congrArg Host.Outcome.next (wakePass_expired ha hd))

theorem exec_wdwake_alive {s : State} {c : Word} (hc : s.connected = true) (hw : s.wdWake ≤ s.now)
    (ha : s.activeCommand = some c) (hd : s.now ≤ s.repeatDeadline) :
    exec .wdwake s = .next { s with wdWake := s.now + s.cfg.wdTrackSleep, out := {} } :=
  (exec_wdwake_enabled hc hw).trans (congrArg Host.Outcome.next (wakePass_alive ha hd))

/-- R30, what a wake writes. -/
theorem wdwake_frame {s t : State} (h : exec .wdwake s = .next t) :
    t = { s with activeCommand := t.activeCommand, wdWake := t.wdWake, out := t.out } := by
  rcases wake_cases h with ⟨-, rfl⟩ | ⟨-, -, -, rfl⟩ | ⟨_, -, -, -, -, rfl⟩ | ⟨_, -, -, -, -, rfl⟩ <;> rfl

/-- Settles O28: the frame is `wdwake_frame`; for the independence, the branch the wake takes in one state is decided by
the fields on which the two states agree, so the wake takes it in the other state as well. -/
theorem watchdogTouchesOnlyButtonState : Obligations.WatchdogTouchesOnlyButtonState := by
  refine ⟨fun _ _ => wdwake_frame, fun s s' t t' hcon hact hdead hwake hnow hcfg h h' => ?_⟩
  rcases wake_cases h with ⟨hg, rfl⟩ | ⟨hc, hw, ha, rfl⟩ | ⟨c, hc, hw, ha, hd, rfl⟩ | ⟨c, hc, hw, ha, hd, rfl⟩
  · obtain rfl := Host.Outcome.next.inj
      ((exec_wdwake_turnedAway (hcon ▸ hnow ▸ hwake ▸ hg)).symm.trans h')
    exact ⟨hact, hwake, rfl⟩
  · obtain rfl := Host.Outcome.next.inj
      ((exec_wdwake_idle (hcon ▸ hc) (hwake ▸ hnow ▸ hw) (hact ▸ ha)).symm.trans h')
    exact ⟨hact, by rw [hnow, hcfg], rfl⟩
  · obtain rfl := Host.Outcome.next.inj
      ((exec_wdwake_expired (hcon ▸ hc) (hwake ▸ hnow ▸ hw) (hact ▸ ha) (hdead ▸ hnow ▸ hd)).symm.trans h')
    exact ⟨rfl, by rw [hnow, hcfg], rfl⟩
  · obtain rfl := Host.Outcome.next.inj
      ((exec_wdwake_alive (hcon ▸ hc) (hwake ▸ hnow ▸ hw) (hact ▸ ha) (hdead ▸ hnow ▸ hd)).symm.trans h')
    exact ⟨hact, by rw [hnow, hcfg], rfl⟩

end Sys2Proof.Machine
end

section
/-! PROOFS. The operation word (spec/30_encoding.md sections 1, 2, 6 and 7): the decoder by the code, the class of a pulse
by its sum, and how decoder and encoder fit together. -/

namespace Sys2Proof

open Sys2Proof.Machine

/-! ### The decoder by the code -/

theorem decode_of_opField {w : OpWord} {op : BitVec 3} (h : opField w = op) (c : Config) :
    decode c w = decodeFields c op (markField w) (spaceField w) := by
  rw [decode, h]

/-- The code `0b010`, `PULSE`: the decoder finds the class of the two operands (R82). -/
theorem decodeFields_pulse (c : Config) (mark space : Word) :
    decodeFields c 0b010#3 mark space = .ofClass mark space (pulseClass c mark space) := rfl

theorem decode_pulseWord (c : Config) (mark space : Word) :
    decode c (pulseWord mark space) = .ofClass mark space (pulseClass c mark space) :=
  decode_packWord c 0b010#3 mark space

theorem pulseClass_eq_classify (c : Config) (mark space : Word) :
    pulseClass c mark space = classify c (mark.toNat + space.toNat) := by
  rw [pulseClass, interval_toNat]

/-! ### The encoder after the decoder, and before it -/

theorem encode_ofClass (mark space : Word) (k : IntervalClass) :
    encode (.ofClass mark space k) = packWord 0b010#3 mark space := by
  cases k <;> rfl

theorem wf_ofClass_iff (c : Config) (mark space : Word) (k : IntervalClass) :
    (Instr.ofClass mark space k).wf c = true ↔ pulseClass c mark space = k := by
  cases k <;> exact beq_iff_eq

/-- A well-formed pulse is the one its own word decodes to, whatever its class. -/
theorem decode_encode_ofClass {c : Config} {mark space : Word} {k : IntervalClass}
    (h : (Instr.ofClass mark space k).wf c = true) :
    decode c (encode (.ofClass mark space k)) = .ofClass mark space k := by
  rw [encode_ofClass, decode_packWord, decodeFields_pulse, (wf_ofClass_iff c mark space k).mp h]

/-- Settles O1: a format-Z operation is decoded by its code alone (`decode_packWord`); for a pulse, well-formedness says
that the class the decoder computes is the one the operation has (`decode_encode_ofClass`). -/
theorem decodeOfEncodeIsOperation : Obligations.DecodeOfEncodeIsOperation := by
  intro c i hwf
  cases i with
  | pulseZero mark space => exact decode_encode_ofClass (k := .zero) hwf
  | pulseOne mark space => exact decode_encode_ofClass (k := .one) hwf
  | pulseRepeat mark space => exact decode_encode_ofClass (k := .repeatMarker) hwf
  | pulseStart mark space => exact decode_encode_ofClass (k := .start) hwf
  | pulseNoise mark space => exact decode_encode_ofClass (k := .noise) hwf
  | nop | connect | wdwake | pollrx | getcmd | getdgram | reserved => exact decode_packWord _ _ _ _

/-- The seven codes beside `PULSE` are the format-Z operations, whose words have zeros below the code (R71). -/
theorem decodeFields_formatZ {op : BitVec 3} (h : op ≠ 0b010#3) (c : Config) (mark space : Word) :
    (decodeFields c op mark space).wf c = true ∧
      encode (decodeFields c op mark space) = packWord op 0#16 0#16 := by
  have hcodes : op = 0b000#3 ∨ op = 0b001#3 ∨ op = 0b011#3 ∨ op = 0b100#3 ∨ op = 0b101#3 ∨ op = 0b110#3 ∨
      op = 0b111#3 := by
    revert op
    decide
  rcases hcodes with rfl | rfl | rfl | rfl | rfl | rfl | rfl <;> exact ⟨rfl, rfl⟩

/-- Settles O2: a `PULSE` word is packed again from the operands it was decoded with (`packWord_fields`), under the class
they have; any other word keeps its code (`decodeFields_formatZ`). -/
theorem encodeOfDecodeKeepsWord : Obligations.EncodeOfDecodeKeepsWord := by
  intro c w
  by_cases h : opField w = 0b010#3
  · rw [if_pos h, decode_of_opField h, decodeFields_pulse, encode_ofClass, ← h]
    exact ⟨(wf_ofClass_iff _ _ _ _).mpr rfl, packWord_fields w⟩
  · rw [if_neg h]
    exact decodeFields_formatZ h c _ _

/-! ### The decoder in numbers -/

theorem opField_eq_ofNat {w : OpWord} {n : Nat} (h : w.toNat / 2 ^ 32 = n) : opField w = BitVec.ofNat 3 n := by
  rw [← h, ← opField_toNat, BitVec.ofNat_toNat, BitVec.setWidth_eq]

theorem markField_eq_ofNat (w : OpWord) : markField w = BitVec.ofNat 16 (w.toNat / 2 ^ 16 % 2 ^ 16) := by
  rw [← markField_toNat, BitVec.ofNat_toNat, BitVec.setWidth_eq]

theorem spaceField_eq_ofNat (w : OpWord) : spaceField w = BitVec.ofNat 16 (w.toNat % 2 ^ 16) := by
  rw [← spaceField_toNat, BitVec.ofNat_toNat, BitVec.setWidth_eq]

/-- The class of a word's two operands, by the sum of its two lower digits. -/
theorem pulseClass_fields (c : Config) (w : OpWord) :
    pulseClass c (markField w) (spaceField w) = classify c (w.toNat / 2 ^ 16 % 2 ^ 16 + w.toNat % 2 ^ 16) := by
  rw [pulseClass_eq_classify, markField_toNat, spaceField_toNat]

/-- A `PULSE` word in numbers: the two digits are its operands, and their sum has the class. -/
theorem decode_of_pulseCode {c : Config} {w : OpWord} {k : IntervalClass} (h : w.toNat / 2 ^ 32 = 2)
    (hk : classify c (w.toNat / 2 ^ 16 % 2 ^ 16 + w.toNat % 2 ^ 16) = k) :
    decode c w = .ofClass (BitVec.ofNat 16 (w.toNat / 2 ^ 16 % 2 ^ 16)) (BitVec.ofNat 16 (w.toNat % 2 ^ 16)) k := by
  rw [decode_of_opField (opField_eq_ofNat h), decodeFields_pulse, pulseClass_fields, hk, ← markField_eq_ofNat,
    ← spaceField_eq_ofNat]

end Sys2Proof

namespace Sys2Proof.Machine

open Sys2Proof

/-! ### The classifier, one comparison after the other (R82, R100) -/

section
variable {c : Config} {i : Nat}

theorem classify_zero (h : i < c.tOne) : classify c i = .zero := by
  rw [classify, if_pos h]

theorem classify_one (h1 : c.tOne ≤ i) (h : i < c.tRepeat) : classify c i = .one := by
  rw [classify, if_neg (Nat.not_lt.mpr h1), if_pos h]

theorem classify_repeatMarker (h1 : c.tOne ≤ i) (h2 : c.tRepeat ≤ i) (h : i < c.tStart) :
    classify c i = .repeatMarker := by
  rw [classify, if_neg (Nat.not_lt.mpr h1), if_neg (Nat.not_lt.mpr h2), if_pos h]

theorem classify_start (h1 : c.tOne ≤ i) (h2 : c.tRepeat ≤ i) (h3 : c.tStart ≤ i) (h : i < c.tNoise) :
    classify c i = .start := by
  rw [classify, if_neg (Nat.not_lt.mpr h1), if_neg (Nat.not_lt.mpr h2), if_neg (Nat.not_lt.mpr h3), if_pos h]

theorem classify_noise (h1 : c.tOne ≤ i) (h2 : c.tRepeat ≤ i) (h3 : c.tStart ≤ i) (h4 : c.tNoise ≤ i) :
    classify c i = .noise := by
  rw [classify, if_neg (Nat.not_lt.mpr h1), if_neg (Nat.not_lt.mpr h2), if_neg (Nat.not_lt.mpr h3),
    if_neg (Nat.not_lt.mpr h4)]

end

/-- Settles O4: the code's number selects the arm of the decoder (`opField_eq_ofNat`), and in the arm of `PULSE` the
comparisons of the sum select the class (`decode_of_pulseCode`). -/
theorem decodingFollowsTheAlgorithm : Obligations.DecodingFollowsTheAlgorithm := by
  intro c w op mark space i m p
  exact ⟨
    fun h => decode_of_opField (opField_eq_ofNat h) c,
    fun h => decode_of_opField (opField_eq_ofNat h) c,
    fun h hz => decode_of_pulseCode h (classify_zero hz),
    fun h h1 hi => decode_of_pulseCode h (classify_one h1 hi),
    fun h h1 h2 hi => decode_of_pulseCode h (classify_repeatMarker h1 h2 hi),
    fun h h1 h2 h3 hi => decode_of_pulseCode h (classify_start h1 h2 h3 hi),
    fun h h1 h2 h3 h4 => decode_of_pulseCode h (classify_noise h1 h2 h3 h4),
    fun h => decode_of_opField (opField_eq_ofNat h) c,
    fun h => decode_of_opField (opField_eq_ofNat h) c,
    fun h => decode_of_opField (opField_eq_ofNat h) c,
    fun h => decode_of_opField (opField_eq_ofNat h) c,
    fun h => decode_of_opField (opField_eq_ofNat h) c⟩

/-! ### Only the sum counts -/

/-- The five meanings look at the class alone, not at the operands (R72, R113). -/
theorem exec_ofClass_operands (k : IntervalClass) (mark space mark' space' : Word) (s : State) :
    exec (.ofClass mark space k) s = exec (.ofClass mark' space' k) s := by
  cases k <;> rfl

/-- Settles O5: 17 bits hold the sum of two 16-bit operands (`interval_toNat`), the class is a function of the sum
(`pulseClass_eq_classify`), and the effect one of the class (`exec_ofClass_operands`). -/
theorem intervalIsExactSum : Obligations.IntervalIsExactSum := by
  refine ⟨fun mark space => ?_, fun s v w hv hw hsum => ?_⟩
  · have hm := mark.isLt
    have hs := space.isLt
    rw [interval_toNat]
    omega
  · rw [decode_of_opField hv, decode_of_opField hw, decodeFields_pulse, decodeFields_pulse,
      pulseClass_eq_classify, pulseClass_eq_classify, hsum]
    exact exec_ofClass_operands _ _ _ _ _ s

/-! ### The reserved code -/

/-- Settles O40: the code selects the decoder's last arm, and the meaning of that operation is the refusal. -/
theorem reservedCodeIsRefused : Obligations.ReservedCodeIsRefused :=
  ⟨fun c _ h => decode_of_opField h c, fun _ => rfl⟩

end Sys2Proof.Machine
end

section
/-! PROOFS. The shorthands of spec/30_encoding.md section 8 (R83, R84): their words under the default thresholds, the bits
of a word, and a frame from its leader to its commit. -/

namespace Sys2Proof

open Sys2Proof.Machine

/-! ### The nominal pulses under the default thresholds (R75) -/

/-- The default thresholds of R6. -/
structure Config.DefaultThresholds (c : Config) : Prop where
  one_eq : c.tOne = 1600
  repeat_eq : c.tRepeat = 2700
  start_eq : c.tStart = 12500
  noise_eq : c.tNoise = 14500

section
variable {c : Config}

theorem classify_default (h : c.DefaultThresholds) (i : Nat) : classify c i = classify Config.reference i := by
  rw [classify, h.one_eq, h.repeat_eq, h.start_eq, h.noise_eq]
  rfl

theorem decode_pulseWord_default (h : c.DefaultThresholds) (mark space : Word) :
    decode c (pulseWord mark space) =
      .ofClass mark space (classify Config.reference (mark.toNat + space.toNat)) := by
  rw [decode_pulseWord, pulseClass_eq_classify, classify_default h]

theorem decode_leaderWord (h : c.DefaultThresholds) : decode c leaderWord = .pulseStart 9000#16 4500#16 :=
  decode_pulseWord_default h _ _

theorem decode_repeatCodeWord (h : c.DefaultThresholds) : decode c repeatCodeWord = .pulseRepeat 9000#16 2250#16 :=
  decode_pulseWord_default h _ _

theorem decode_gapWord (h : c.DefaultThresholds) : decode c gapWord = .pulseNoise 560#16 40000#16 :=
  decode_pulseWord_default h _ _

theorem decode_bitWord (h : c.DefaultThresholds) (bit : Bool) :
    decode c (bitWord bit) = .bitPulse bit 560#16 (if bit then 1690#16 else 560#16) := by
  cases bit <;> exact decode_pulseWord_default h _ _

end

/-- Settles O3: the five `PULSE` words of the table are the nominal pulses of R75, and the others are decoded by their
code. -/
theorem vectorWordsDecode : Obligations.VectorWordsDecode := by
  intro c h1 h2 h3 h4
  have h : c.DefaultThresholds := ⟨h1, h2, h3, h4⟩
  have hzero : 0b01000000010001100000000001000110000#35 = bitWord false := by decide
  have hone : 0b01000000010001100000000011010011010#35 = bitWord true := by decide
  have hrepeat : 0b01000100011001010000000100011001010#35 = repeatCodeWord := by decide
  have hstart : 0b01000100011001010000001000110010100#35 = leaderWord := by decide
  have hnoise : 0b01000000010001100001001110001000000#35 = gapWord := by decide
  rw [hzero, hone, hrepeat, hstart, hnoise]
  exact ⟨decode_of_opField (op := 0b000#3) (by decide) c, decode_of_opField (op := 0b001#3) (by decide) c,
    decode_bitWord h false, decode_bitWord h true, decode_repeatCodeWord h, decode_leaderWord h, decode_gapWord h,
    decode_of_opField (op := 0b011#3) (by decide) c, decode_of_opField (op := 0b100#3) (by decide) c,
    decode_of_opField (op := 0b101#3) (by decide) c, decode_of_opField (op := 0b110#3) (by decide) c,
    decode_of_opField (op := 0b111#3) (by decide) c⟩

end Sys2Proof

namespace Sys2Proof.Machine

open Sys2Proof

/-! ### The bits of a word, and bits shifted into a register -/

theorem length_bitsDown (v : Word) (n : Nat) : (bitsDown v n).length = n := by
  induction n with
  | zero => rfl
  | succ n ih => rw [bitsDown, List.length_cons, ih]

theorem bitsValue_bitsDown (v : Word) (n : Nat) : bitsValue (bitsDown v n) = v.toNat % 2 ^ n := by
  induction n with
  | zero => rw [Nat.pow_zero, Nat.mod_one, bitsDown, bitsValue]
  | succ n ih =>
    rw [bitsDown, bitsValue, ih, length_bitsDown, BitVec.getLsbD, Nat.toNat_testBit, Nat.mod_pow_succ, Nat.mul_comm,
      Nat.add_comm]

/-- R115 for one register: bits shifted in, first received most significant. -/
theorem foldl_shl16_eq_ofNat (bits : List Bool) (w : Word) :
    bits.foldl shl16 w = BitVec.ofNat 16 (w.toNat * 2 ^ bits.length + bitsValue bits) := by
  induction bits generalizing w with
  | nil => simp [bitsValue]
  | cons b bits ih =>
    have hshift : (shl16 w b).toNat * 2 ^ bits.length + bitsValue bits ≡
        (2 * w.toNat + b.toNat) * 2 ^ bits.length + bitsValue bits [MOD 2 ^ 16] := by
      rw [shl16_toNat]
      exact ((Nat.mod_modEq _ _).mul_right _).add_right _
    have hsum : (2 * w.toNat + b.toNat) * 2 ^ bits.length + bitsValue bits =
        w.toNat * 2 ^ (b :: bits).length + bitsValue (b :: bits) := by
      rw [bitsValue, List.length_cons, Nat.pow_succ]
      ring
    rw [List.foldl_cons, ih, ← hsum]
    apply BitVec.eq_of_toNat_eq
    rw [BitVec.toNat_ofNat, BitVec.toNat_ofNat]
    exact hshift

/-- Sixteen bits shifted in leave nothing of what a register held (R111). -/
theorem foldl_shl16_bitsDown (v w : Word) : (bitsDown v 16).foldl shl16 w = v := by
  rw [foldl_shl16_eq_ofNat, length_bitsDown, bitsValue_bitsDown]
  apply BitVec.eq_of_toNat_eq
  have hv := v.isLt
  rw [BitVec.toNat_ofNat]
  omega

/-! ### The bits of a frame, one after the other (R115) -/

/-- `bits` have come since the last frame boundary, at which the accumulators held `high` and `low`: the bits of the
first section are shifted into the one, the others into the other, and a whole frame is committed. -/
structure State.FrameBits (s : State) (high low : Word) (bits : List Bool) : Prop where
  connected : s.connected = true
  count_eq : s.bitsReceived.toNat = bits.length
  high_eq : s.highWord = (bits.take s.cfg.wordBits).foldl shl16 high
  low_eq : s.lowWord = (bits.drop s.cfg.wordBits).foldl shl16 low
  commit : bits.length = s.cfg.frameBits →
    s.datagram = some ⟨sectionBits s.cfg s.highWord, sectionBits s.cfg s.lowWord⟩

section
variable {s : State} {high low : Word} {bits : List Bool}

theorem State.FrameBits.takeInput (h : s.FrameBits high low bits) (i : Input) (rest : List Input) :
    (s.takeInput i rest).FrameBits high low bits :=
  ⟨h.connected, h.count_eq, h.high_eq, h.low_eq, h.commit⟩

/-- A pulse of class Start or Noise begins a frame; the accumulators keep what they held (R105, R106, R111). -/
theorem frameBits_nil_pulseBoundary (hc : s.connected = true) (hfit : s.cfg.FrameFits) :
    (pulseBoundary .incomplete s).FrameBits s.highWord s.lowWord [] := by
  rw [pulseBoundary_connected _ hc, route_incomplete]
  have hframe := hfit.frame_eq
  have hword := hfit.word_pos
  refine ⟨hc, rfl, ?_, ?_, fun h => ?_⟩
  · simp
  · simp
  · change 0 = s.cfg.frameBits at h
    omega

/-- The bit that completes a frame sets the received flag (R121). -/
theorem pulseBit_last_received (hs : s.FrameBits high low bits) (hfit : s.cfg.FrameFits) (bit : Bool)
    (hlast : bits.length + 1 = s.cfg.frameBits) : (pulseBit bit s).hasNewDatagram = true := by
  have hframe := hfit.frame_eq
  have hword := hfit.word_pos
  have hcount := hs.count_eq
  obtain ⟨_, _, e, -⟩ := pulseBit_last_cases bit hs.connected (by omega) (by omega)
  rw [e]

/-- One more bit, in each of the three bands of the count (R101). -/
theorem State.FrameBits.append (hs : s.FrameBits high low bits) (hfit : s.cfg.FrameFits) (bit : Bool)
    (hlt : bits.length < s.cfg.frameBits) : (pulseBit bit s).FrameBits high low (bits ++ [bit]) := by
  obtain ⟨hframe, -, hle⟩ := hfit
  have hcount := hs.count_eq
  have hlen : (bits ++ [bit]).length = bits.length + 1 := by simp
  have hsucc : (s.bitsReceived + 1).toNat = (bits ++ [bit]).length := by
    rw [count_succ_toNat (by omega), hcount, hlen]
  by_cases hhigh : bits.length < s.cfg.wordBits
  · have htake : ((bits ++ [bit]).take s.cfg.wordBits).foldl shl16 high = shl16 s.highWord bit := by
      rw [hs.high_eq, List.take_of_length_le hhigh.le, List.take_of_length_le (by omega), List.foldl_concat]
    have hdrop : (bits ++ [bit]).drop s.cfg.wordBits = bits.drop s.cfg.wordBits := by
      rw [List.drop_of_length_le hhigh.le, List.drop_of_length_le (by omega)]
    rw [pulseBit_high bit hs.connected (by omega) (by omega)]
    exact ⟨hs.connected, hsucc, htake.symm, hs.low_eq.trans (congrArg (List.foldl shl16 low) hdrop.symm),
      fun h => absurd (hlen.symm.trans h) (show bits.length + 1 ≠ s.cfg.frameBits by omega)⟩
  · have htake : (bits ++ [bit]).take s.cfg.wordBits = bits.take s.cfg.wordBits :=
      List.take_append_of_le_length (by omega)
    have hdrop : ((bits ++ [bit]).drop s.cfg.wordBits).foldl shl16 low = shl16 s.lowWord bit := by
      rw [hs.low_eq, List.drop_append_of_le_length (by omega), List.foldl_concat]
    by_cases hlast : bits.length + 1 = s.cfg.frameBits
    · obtain ⟨_, _, e, -⟩ := pulseBit_last_cases bit hs.connected (by omega) (by omega)
      rw [e, ← hlast, ← hcount, ← count_succ_eq_ofNat]
      exact ⟨hs.connected, hsucc, hs.high_eq.trans (congrArg (List.foldl shl16 high) htake.symm), hdrop.symm,
        fun _ => rfl⟩
    · rw [pulseBit_low bit hs.connected (by omega) (by omega)]
      exact ⟨hs.connected, hsucc, hs.high_eq.trans (congrArg (List.foldl shl16 high) htake.symm), hdrop.symm,
        fun h => absurd (hlen.symm.trans h) hlast⟩

end

/-! ### A run of the shorthands' words -/

theorem pulseBit_keeps (bit : Bool) (s : State) :
    (pulseBit bit s).now = s.now ∧ (pulseBit bit s).inputs = s.inputs ∧ (pulseBit bit s).cfg = s.cfg :=
  exec_keeps (exec_bitPulse bit 0#16 0#16 s)

theorem pulseBoundary_incomplete_keeps (s : State) :
    (pulseBoundary .incomplete s).now = s.now ∧ (pulseBoundary .incomplete s).inputs = s.inputs ∧
      (pulseBoundary .incomplete s).cfg = s.cfg :=
  exec_keeps (i := .pulseStart 0#16 0#16) rfl

theorem step_bitWord {s : State} {i : Input} {rest : List Input} {bit : Bool} (hd : s.cfg.DefaultThresholds)
    (hi : s.inputs = i :: rest) (hw : i.word = bitWord bit) (ht : s.now ≤ i.now) :
    step s = .next (pulseBit bit (s.takeInput i rest)) := by
  rw [step_cons hi ht, hw, decode_bitWord hd, exec_bitPulse]

theorem step_leaderWord {s : State} {i : Input} {rest : List Input} (hd : s.cfg.DefaultThresholds)
    (hi : s.inputs = i :: rest) (hw : i.word = leaderWord) (ht : s.now ≤ i.now) :
    step s = .next (pulseBoundary .incomplete (s.takeInput i rest)) := by
  rw [step_cons hi ht, hw, decode_leaderWord hd]
  rfl

/-- The words of the bits that are still to come complete the frame. The flag's premise is for the run without a bit. -/
theorem runSteps_bitWords {high low : Word} (bits : List Bool) {s : State} {done : List Bool}
    (hd : s.cfg.DefaultThresholds) (hfit : s.cfg.FrameFits) (hw : s.inputs.map Input.word = bits.map bitWord)
    (ht : timesFrom s.now s.inputs) (hs : s.FrameBits high low done)
    (hlen : done.length + bits.length = s.cfg.frameBits)
    (hflag : done.length = s.cfg.frameBits → s.hasNewDatagram = true) :
    ∃ t, runSteps bits.length s = .next t ∧ t.cfg = s.cfg ∧ t.FrameBits high low (done ++ bits) ∧
      t.hasNewDatagram = true := by
  induction bits generalizing s done with
  | nil => exact ⟨s, rfl, rfl, by rwa [List.append_nil], hflag hlen⟩
  | cons bit bits ih =>
    obtain ⟨i, rest, hi, hword, hrest⟩ := List.map_eq_cons_iff.mp hw
    rw [hi] at ht
    rw [List.length_cons] at hlen
    have hs' := hs.takeInput i rest
    have hdone : (done ++ [bit]).length = done.length + 1 := by simp
    obtain ⟨hnow, hinputs, hcfg⟩ := pulseBit_keeps bit (s.takeInput i rest)
    rw [State.takeInput_cfg] at hcfg
    obtain ⟨t, hrun, htcfg, htbits, htflag⟩ := ih (hcfg ▸ hd) (hcfg ▸ hfit) (hinputs ▸ hrest)
      (hinputs ▸ hnow ▸ ht.2) (hs'.append hfit bit (show done.length < s.cfg.frameBits by omega))
      (by rw [hcfg]; omega)
      (fun h => pulseBit_last_received hs' hfit bit (hdone.symm.trans (h.trans (congrArg Config.frameBits hcfg))))
    refine ⟨t, ?_, htcfg.trans hcfg, ?_, htflag⟩
    · rw [List.length_cons, runSteps_of_step (step_bitWord hd hi hword ht.1), hrun]
    · rwa [List.append_assoc, List.singleton_append] at htbits

/-- The words of a run whose times are listed apart. -/
theorem map_word_zipWith {times : List Nat} {words : List OpWord} (h : times.length = words.length) :
    (List.zipWith Input.mk times words).map Input.word = words := by
  rw [← List.map_uncurry_zip_eq_zipWith, List.map_map]
  exact List.map_snd_zip h.ge

theorem frameWords_eq (a c : Word) :
    frameWords a c = leaderWord :: (bitsDown a 16 ++ bitsDown c 16).map bitWord := by
  rw [List.map_append]
  rfl

theorem length_bitsDown_append (a c : Word) : (bitsDown a 16 ++ bitsDown c 16).length = 32 := by
  rw [List.length_append, length_bitsDown, length_bitsDown]

/-- At the default sizes, the bits of two words leave these words as the sections. -/
theorem State.FrameBits.datagram_eq {s : State} {high low a c : Word}
    (h : s.FrameBits high low (bitsDown a 16 ++ bitsDown c 16)) (hframe : s.cfg.frameBits = 32)
    (hword : s.cfg.wordBits = 16) : s.datagram = some ⟨a, c⟩ := by
  have hhigh : s.highWord = a := by
    rw [h.high_eq, hword, List.take_left' (length_bitsDown a 16), foldl_shl16_bitsDown]
  have hlow : s.lowWord = c := by
    rw [h.low_eq, hword, List.drop_left' (length_bitsDown a 16), foldl_shl16_bitsDown]
  rw [h.commit (by rw [length_bitsDown_append, hframe]), hhigh, hlow, sectionBits_default hword,
    sectionBits_default hword]

/-- Settles O17: the leader begins a frame from any count (`frameBits_nil_pulseBoundary`), the thirty-two bits complete
it (`runSteps_bitWords`), and the sections spell the two words (`State.FrameBits.datagram_eq`). -/
theorem frameShorthandCommits : Obligations.FrameShorthandCommits := by
  intro s a c times hc h1 h2 h3 h4 hframe hword hlen hin ht
  have hd : s.cfg.DefaultThresholds := ⟨h1, h2, h3, h4⟩
  have hfit : s.cfg.FrameFits := ⟨by omega, by omega, by omega⟩
  have hwords : s.inputs.map Input.word = leaderWord :: (bitsDown a 16 ++ bitsDown c 16).map bitWord := by
    rw [hin, map_word_zipWith (by rw [hlen, frameWords_eq, List.length_cons, List.length_map, length_bitsDown_append]),
      frameWords_eq]
  obtain ⟨i, rest, hi, hleader, hrest⟩ := List.map_eq_cons_iff.mp hwords
  rw [hi] at ht
  obtain ⟨hnow, hinputs, hcfg⟩ := pulseBoundary_incomplete_keeps (s.takeInput i rest)
  rw [State.takeInput_cfg] at hcfg
  obtain ⟨t, hrun, htcfg, htbits, htflag⟩ :=
    runSteps_bitWords (bitsDown a 16 ++ bitsDown c 16) (hcfg ▸ hd) (hcfg ▸ hfit) (hinputs ▸ hrest)
      (hinputs ▸ hnow ▸ ht.2) (frameBits_nil_pulseBoundary (s := s.takeInput i rest) hc hfit)
      (by rw [hcfg, length_bitsDown_append, hframe]; rfl) (fun h => absurd h (by rw [hcfg, hframe]; decide))
  rw [hcfg] at htcfg
  refine ⟨t, ?_, htbits.datagram_eq (htcfg ▸ hframe) (htcfg ▸ hword), htflag, ?_⟩
  · rw [runSteps_of_step (step_leaderWord hd hi hleader ht.1), ← hrun, length_bitsDown_append]
  · exact BitVec.eq_of_toNat_eq (htbits.count_eq.trans (length_bitsDown_append a c))

end Sys2Proof.Machine
end

section
/-! PROOFS. The decoder (spec/40_decoder.md sections 1 to 5): what each operation leaves unchanged, the classifier, the
bit append, the pulses that end a frame, and what the decoder reads. -/

namespace Sys2Proof

/-! ### The bit of a pulse -/

theorem Instr.bitOf_of_not_pulse {i : Instr} (h : i.isPulse = false) : i.bitOf = none := by
  rw [Instr.isPulse_iff, Bool.or_eq_false_iff, Option.isSome_eq_false_iff, Option.isNone_iff_eq_none] at h
  exact h.1

theorem Instr.exists_bitOf {i : Instr} (hp : i.isPulse = true) (hb : i.isBoundary = false) :
    ∃ bit, i.bitOf = some bit := by
  rw [Instr.isPulse_iff, hb, Bool.or_false] at hp
  exact Option.isSome_iff_exists.mp hp

/-! ### The sizes of a frame -/

/-- The count holds a whole frame. -/
theorem Config.FrameFits.toNat_frameBits {c : Config} (h : c.FrameFits) :
    (BitVec.ofNat 6 c.frameBits).toNat = c.frameBits := by
  obtain ⟨hframe, -, hle⟩ := h
  rw [BitVec.toNat_ofNat]
  omega

/-- Short of the last bit of a frame, the second section has begun. -/
theorem Config.FrameFits.wordBits_le {c : Config} (h : c.FrameFits) {n : Nat} (hn : n + 1 = c.frameBits) :
    c.wordBits ≤ n := by
  obtain ⟨hframe, hpos, -⟩ := h
  omega

end Sys2Proof

namespace Sys2Proof.Machine

open Sys2Proof

/-! ### Frames of the operations (R115, in brackets; R148, R154) -/

/-- Once connected, an operation that is no pulse writes neither the decoder's registers, nor the datagram, nor the
deadline. -/
theorem exec_nonPulse_keeps_decoder {i : Instr} {s t : State} (h : exec i s = .next t) (hi : i.isPulse = false)
    (hc : s.connected = true) :
    t.bitsReceived = s.bitsReceived ∧ t.highWord = s.highWord ∧ t.lowWord = s.lowWord ∧
      t.datagram = s.datagram ∧ t.repeatDeadline = s.repeatDeadline := by
  have hbit := Instr.bitOf_of_not_pulse hi
  cases exec_effect h with
  | highBit _ hb | lowBit _ hb | lastBit _ _ _ hb => exact absurd (hbit.symm.trans hb) nofun
  | repeatMarker _ _ hr => exact absurd hi (by simp [hr])
  | startOrNoise _ _ hr => exact absurd hi (by rcases hr with rfl | rfl <;> simp)
  | connectFirst _ hu => exact absurd (hc.symm.trans hu) nofun
  | _ => exact ⟨rfl, rfl, rfl, rfl, rfl⟩

/-- Only `CONNECT` writes `connected`, and only `CONNECT` and the wake write `wdWake`. -/
theorem exec_pulse_keeps_connected {i : Instr} {s t : State} (h : exec i s = .next t) (hi : i.isPulse = true) :
    t.connected = s.connected ∧ t.wdWake = s.wdWake := by
  cases exec_effect h with
  | wakeIdle hw | wakeExpired _ hw | wakeAlive _ hw | connectFirst hw => exact absurd hi (by simp [hw])
  | _ => exact ⟨rfl, rfl⟩

/-- `NOP` and the queries write no register but the received flag, and that is written by `POLLRX` alone. -/
theorem exec_query_frame {i : Instr} {s t : State} (h : exec i s = .next t)
    (hi : i = .nop ∨ i = .pollrx ∨ i = .getcmd ∨ i = .getdgram) :
    t = { s with hasNewDatagram := t.hasNewDatagram, out := t.out } ∧
      (i ≠ .pollrx → t.hasNewDatagram = s.hasNewDatagram) := by
  rcases hi with rfl | rfl | rfl | rfl <;> obtain rfl := Host.Outcome.next.inj h
  · exact ⟨rfl, fun _ => rfl⟩
  · exact ⟨rfl, fun hne => absurd rfl hne⟩
  · exact ⟨rfl, fun _ => rfl⟩
  · exact ⟨rfl, fun _ => rfl⟩

/-- Settles O50: one frame lemma for each of the four clauses. -/
theorem operationFrames : Obligations.OperationFrames := by
  intro s t i h
  refine ⟨exec_keeps h, exec_nonPulse_keeps_decoder h, exec_pulse_keeps_connected h, fun hq => ?_⟩
  obtain ⟨hframe, hflag⟩ := exec_query_frame h hq
  rw [hframe]
  exact ⟨rfl, rfl, rfl, rfl, rfl, rfl, rfl, rfl, hflag⟩

/-! ### The classifier (R100) -/

/-- Settles O6: of the five cases of `classify_cases`, the ordering of the thresholds makes each range exclude the
others. -/
theorem classifierFollowsThresholds : Obligations.ClassifierFollowsThresholds := by
  intro c _ _ _ _ i
  rcases classify_cases c i with ⟨hk, h⟩ | ⟨hk, h⟩ | ⟨hk, h⟩ | ⟨hk, h⟩ | ⟨hk, h⟩ <;>
    simp only [hk, reduceCtorEq, true_iff, false_iff] <;> omega

/-! ### The bit append (R101, R102, R103, R107) -/

/-- The whole pulse below `WORD_BITS`, in numbers. -/
theorem pulseBit_high_eq {s : State} (bit : Bool) (hc : s.connected = true)
    (hf : s.bitsReceived.toNat < s.cfg.frameBits) (hn : s.bitsReceived.toNat < s.cfg.wordBits) :
    pulseBit bit s = { s with
      bitsReceived := BitVec.ofNat 6 (s.bitsReceived.toNat + 1)
      highWord := BitVec.ofNat 16 (2 * s.highWord.toNat + bit.toNat)
      out := { decResult := some .incomplete } } := by
  rw [pulseBit_high bit hc hf hn, count_succ_eq_ofNat, ← shl16_eq_ofNat]
  rfl

/-- The whole pulse from `WORD_BITS` on, short of the last bit, in numbers. -/
theorem pulseBit_low_eq {s : State} (bit : Bool) (hc : s.connected = true)
    (hn : s.cfg.wordBits ≤ s.bitsReceived.toNat) (hn' : s.bitsReceived.toNat + 1 < s.cfg.frameBits) :
    pulseBit bit s = { s with
      bitsReceived := BitVec.ofNat 6 (s.bitsReceived.toNat + 1)
      lowWord := BitVec.ofNat 16 (2 * s.lowWord.toNat + bit.toNat)
      out := { decResult := some .incomplete } } := by
  rw [pulseBit_low bit hc hn hn', count_succ_eq_ofNat, ← shl16_eq_ofNat]
  rfl

/-- The committed datagram at the default `WORD_BITS`: both registers whole (R24). -/
theorem committed_default {s : State} (bit : Bool) (h : s.cfg.wordBits = 16) :
    committed bit s = ⟨s.highWord, shl16 s.lowWord bit⟩ := by
  rw [committed, sectionBits_default h, sectionBits_default h]

/-- Settles O7: the four bands of the count, each by the equation of the pulse in it. -/
theorem bitPulseAppends : Obligations.BitPulseAppends := by
  intro s bit mark space hc hfit
  rw [exec_bitPulse]
  have hframe := hfit.frame_eq
  refine ⟨fun hn => ?_, fun hn hn' => ?_, fun hlast => ⟨_, rfl, ?_⟩, fun hfull => ?_⟩
  · rw [pulseBit_high_eq bit hc (by omega) hn]
  · rw [pulseBit_low_eq bit hc hn hn']
  · obtain ⟨_, _, e, -⟩ := pulseBit_last_cases bit hc (hfit.wordBits_le hlast) hlast
    rw [e]
    exact ⟨hfit.toNat_frameBits, rfl, shl16_eq_ofNat _ _, congrArg some (committed_eq bit s),
      fun h => congrArg some (committed_default bit h), rfl, rfl, rfl, rfl, rfl, rfl⟩
  · rw [pulseBit_overrun bit hc hfull.ge]
    rfl

/-- Settles O8: at a full count no bit is accepted, and of the other effects only those of the boundary pulses write the
count of a connected state. -/
theorem overrunBitIsDiscarded : Obligations.OverrunBitIsDiscarded := by
  refine ⟨fun s bit mark space hc hfull => ?_, fun s t i hc hfull h hne => ?_⟩
  · rw [exec_bitPulse, pulseBit_overrun bit hc hfull.ge]
    rfl
  · cases exec_effect h with
    | highBit _ _ _ hf => exact absurd hf hfull.not_lt
    | lowBit _ _ _ _ hf | lastBit _ _ _ _ _ _ hf => omega
    | repeatMarker _ _ hi => exact ⟨by rw [hi]; rfl, rfl⟩
    | startOrNoise _ _ hi => exact ⟨by rcases hi with rfl | rfl <;> rfl, rfl⟩
    | connectFirst _ hu => exact absurd (hc.symm.trans hu) nofun
    | _ => exact absurd rfl hne

/-! ### The pulses that end a frame (R104 to R106) -/

/-- The word of a pulse, by the class of the sum of its operands. -/
theorem decode_of_classify {c : Config} {mark space : Word} {k : IntervalClass}
    (h : classify c (mark.toNat + space.toNat) = k) :
    decode c (packWord 0b010#3 mark space) = .ofClass mark space k := by
  rw [← h, ← pulseClass_eq_classify]
  exact decode_pulseWord c mark space

/-- Settles O9: the range selects the class (`classify_repeatMarker`), and the router adds the refresh to the reset of the
count. -/
theorem repeatResetsCountAndRefreshesDeadline : Obligations.RepeatResetsCountAndRefreshesDeadline := by
  refine ⟨fun c mark space h1 h2 h3 => decode_of_classify (classify_repeatMarker (h1.le.trans h2) h2 h3),
    fun s mark space hc => ?_⟩
  exact congrArg Host.Outcome.next (pulseBoundary_connected .repeatMarker hc)

/-- Settles O10: the range selects the class (`classify_start`, `classify_noise`), and the router adds nothing to the reset
of the count. -/
theorem startAndNoiseResetCountOnly : Obligations.StartAndNoiseResetCountOnly := by
  refine ⟨fun c mark space h1 h2 h3 h => ?_, fun s mark space hc => ?_⟩
  · have hrepeat := h2.le.trans h
    have hone := h1.le.trans hrepeat
    split_ifs with hn
    · exact decode_of_classify (classify_start hone hrepeat h hn)
    · exact decode_of_classify (classify_noise hone hrepeat h (Nat.not_lt.mp hn))
  · have hpulse := pulseBoundary_connected .incomplete hc
    exact ⟨congrArg Host.Outcome.next hpulse, congrArg Host.Outcome.next hpulse⟩

/-- Settles O11: the two functions of a pulse are turned away before `CONNECT`. -/
theorem unconnectedPulseChangesNothing : Obligations.UnconnectedPulseChangesNothing := by
  intro s i hi hc
  refine ⟨?_, rfl⟩
  cases i with
  | pulseZero | pulseOne => exact congrArg Host.Outcome.next (pulseBit_unconnected _ hc)
  | pulseRepeat | pulseStart | pulseNoise => exact congrArg Host.Outcome.next (pulseBoundary_unconnected _ hc)
  | nop | connect | wdwake | pollrx | getcmd | getdgram | reserved => exact absurd hi nofun

/-! ### The transition table (R114) -/

/-- The rows of the boundary classes. -/
theorem boundary_transition {s t : State} {i : Instr} (hc : s.connected = true) (h : exec i s = .next t)
    (hb : i.isBoundary = true) :
    t.bitsReceived = 0#6 ∧ t.datagram = s.datagram ∧
      ((∃ mark space, i = .pulseRepeat mark space) ∧ t.out.decResult = some .repeatMarker ∨
        (¬ ∃ mark space, i = .pulseRepeat mark space) ∧ t.out.decResult = some .incomplete) := by
  cases i with
  | pulseRepeat mark space =>
    obtain rfl := Host.Outcome.next.inj h
    rw [pulseBoundary_connected _ hc]
    exact ⟨rfl, rfl, .inl ⟨⟨mark, space, rfl⟩, rfl⟩⟩
  | pulseStart | pulseNoise =>
    obtain rfl := Host.Outcome.next.inj h
    rw [pulseBoundary_connected _ hc]
    exact ⟨rfl, rfl, .inr ⟨nofun, rfl⟩⟩
  | pulseZero | pulseOne | nop | connect | wdwake | pollrx | getcmd | getdgram | reserved => exact absurd hb nofun

/-- The rows of the bit classes. -/
theorem bit_transition {s : State} (bit : Bool) (hc : s.connected = true) (hfit : s.cfg.FrameFits)
    (hle : s.bitsReceived.toNat ≤ s.cfg.frameBits) :
    (pulseBit bit s).bitsReceived.toNat = min (s.bitsReceived.toNat + 1) s.cfg.frameBits ∧
      (pulseBit bit s).datagram = (if s.bitsReceived.toNat + 1 = s.cfg.frameBits then
        some ⟨s.cfg.sectionOf s.highWord.toNat, s.cfg.sectionOf (pulseBit bit s).lowWord.toNat⟩ else s.datagram) ∧
      (pulseBit bit s).out.decResult =
        some (if s.bitsReceived.toNat + 1 = s.cfg.frameBits then .datagramReady else .incomplete) := by
  have hframe := hfit.frame_eq
  have hword := hfit.word_le
  rcases pulseBit_cases bit s with ⟨hu, -⟩ | ⟨-, hf, hn, e⟩ | ⟨-, hn, hf, e⟩ | ⟨-, hn, hlast⟩ | ⟨-, hf, e⟩
  · exact absurd (hc.symm.trans hu) nofun
  · have hpos := hfit.word_pos
    rw [e, if_neg (by omega), if_neg (by omega)]
    exact ⟨(count_succ_toNat (by omega)).trans (by omega), rfl, rfl⟩
  · rw [e, if_neg (by omega), if_neg (by omega)]
    exact ⟨(count_succ_toNat (by omega)).trans (by omega), rfl, rfl⟩
  · obtain ⟨_, _, e, -⟩ := pulseBit_last_cases bit hc hn hlast
    rw [e, if_pos hlast, if_pos hlast, hlast, Nat.min_self, ← sectionBits_eq, ← sectionBits_eq]
    exact ⟨hfit.toNat_frameBits, rfl, rfl⟩
  · rw [e, if_neg (by omega), if_neg (by omega)]
    exact ⟨by change s.bitsReceived.toNat = _; omega, rfl, rfl⟩

/-- Settles O12: the rows of the boundary classes and those of the bit classes. -/
theorem decoderTransitionTable : Obligations.DecoderTransitionTable := by
  intro s t i hc hfit hle hp h
  refine ⟨fun hb => ?_, fun hb => ?_⟩
  · obtain ⟨hcount, hdata, ⟨hi, hr⟩ | ⟨hi, hr⟩⟩ := boundary_transition hc h hb
    · exact ⟨hcount, iff_of_true hr hi, by simp [hr], by simp [hr], hdata⟩
    · exact ⟨hcount, iff_of_false (by simp [hr]) hi, by simp [hr], by simp [hr], hdata⟩
  · obtain ⟨bit, hbit⟩ := Instr.exists_bitOf hp hb
    obtain rfl := Host.Outcome.next.inj ((exec_of_bitOf hbit s).symm.trans h)
    exact bit_transition bit hc hfit hle

/-! ### What the decoder reads (R109) -/

/-- The registers a pulse's decoder part writes, and the result it signals. -/
def State.decoderPart (s : State) : Count × Word × Word × Option DecResult :=
  (s.bitsReceived, s.highWord, s.lowWord, s.out.decResult)

/-- Two states that agree on what the decoder reads: its registers, and the two sizes of a frame. -/
structure State.SameDecoder (s s' : State) : Prop where
  connected : s.connected = s'.connected
  count : s.bitsReceived = s'.bitsReceived
  high : s.highWord = s'.highWord
  low : s.lowWord = s'.lowWord
  frameBits : s.cfg.frameBits = s'.cfg.frameBits
  wordBits : s.cfg.wordBits = s'.cfg.wordBits

@[simp] theorem decoderPart_buttonLogic (d : Datagram) (s : State) :
    (buttonLogic d s).decoderPart = s.decoderPart := by
  rcases buttonLogic_cases d s with ⟨-, e⟩ | ⟨-, -, e⟩ | ⟨_, -, -, -, e⟩ <;> rw [e] <;> rfl

/-- The router, the second half of a pulse, leaves the decoder's part as it is. -/
theorem decoderPart_route (r : DecResult) (s : State) : (route r s).decoderPart = s.decoderPart := by
  cases r with
  | incomplete | repeatMarker => rfl
  | datagramReady =>
    cases hd : s.datagram with
    | none => simp only [route, routeDatagram, hd]; rfl
    | some d => rw [route_datagram hd, decoderPart_buttonLogic]; rfl

/-- The accumulator and its result, in two states that agree on what it reads. -/
theorem appendBit_congr {s s' : State} (h : s.SameDecoder s') (bit : Bool) :
    (appendBit bit s).2 = (appendBit bit s').2 ∧
    (appendBit bit s).1.bitsReceived = (appendBit bit s').1.bitsReceived ∧
    (appendBit bit s).1.highWord = (appendBit bit s').1.highWord ∧
    (appendBit bit s).1.lowWord = (appendBit bit s').1.lowWord := by
  obtain ⟨-, hcount, hhigh, hlow, hframe, hword⟩ := h
  rcases count_cases s.bitsReceived.toNat s.cfg.frameBits s.cfg.wordBits with ⟨hf, hn⟩ | ⟨hn, hf⟩ | ⟨hn, hf⟩ | hf
  · rw [appendBit_high bit hf hn, appendBit_high bit (by rwa [← hcount, ← hframe]) (by rwa [← hcount, ← hword])]
    simp [hcount, hhigh, hlow]
  · rw [appendBit_low bit hn hf, appendBit_low bit (by rwa [← hcount, ← hword]) (by rwa [← hcount, ← hframe])]
    simp [hcount, hhigh, hlow]
  · rw [appendBit_last bit hn hf, appendBit_last bit (by rwa [← hcount, ← hword]) (by rwa [← hcount, ← hframe])]
    simp [hcount, hhigh, hlow]
  · rw [appendBit_overrun bit hf, appendBit_overrun bit (by rwa [← hcount, ← hframe])]
    exact ⟨rfl, hcount, hhigh, hlow⟩

theorem decoderPart_clearOut {s s' : State} (h : s.SameDecoder s') :
    s.clearOut.decoderPart = s'.clearOut.decoderPart := by
  simp [State.decoderPart, h.count, h.high, h.low]

theorem decoderPart_pulseBit {s s' : State} (h : s.SameDecoder s') (bit : Bool) :
    (pulseBit bit s).decoderPart = (pulseBit bit s').decoderPart := by
  cases hc : s.connected with
  | false =>
    rw [pulseBit_unconnected bit hc, pulseBit_unconnected bit (h.connected ▸ hc), decoderPart_clearOut h]
  | true =>
    have hclear : s.clearOut.SameDecoder s'.clearOut := ⟨h.connected, h.count, h.high, h.low, h.frameBits, h.wordBits⟩
    obtain ⟨hresult, hcount, hhigh, hlow⟩ := appendBit_congr hclear bit
    rw [pulseBit, pulseBit, if_pos hc, if_pos (h.connected ▸ hc), decoderPart_route, decoderPart_route]
    simp [State.decoderPart, hresult, hcount, hhigh, hlow]

theorem decoderPart_pulseBoundary {s s' : State} (h : s.SameDecoder s') (r : DecResult) :
    (pulseBoundary r s).decoderPart = (pulseBoundary r s').decoderPart := by
  cases hc : s.connected with
  | false =>
    rw [pulseBoundary_unconnected r hc, pulseBoundary_unconnected r (h.connected ▸ hc), decoderPart_clearOut h]
  | true =>
    rw [pulseBoundary_connected r hc, pulseBoundary_connected r (h.connected ▸ hc), decoderPart_route,
      decoderPart_route]
    simp [State.decoderPart, h.high, h.low]

/-- Settles O14: each class's pulse writes the same decoder's part in both states, since the router writes none of it
(`decoderPart_route`) and the accumulator reads only what they share (`appendBit_congr`). -/
theorem decoderReadsOnlyItsOwnState : Obligations.DecoderReadsOnlyItsOwnState := by
  intro s s' t t' i hp hc hcount hhigh hlow hframe hword h h'
  have hsame : s.SameDecoder s' := ⟨hc, hcount, hhigh, hlow, hframe, hword⟩
  have hpart : t.decoderPart = t'.decoderPart := by
    cases i with
    | pulseZero | pulseOne =>
      obtain rfl := Host.Outcome.next.inj h
      obtain rfl := Host.Outcome.next.inj h'
      exact decoderPart_pulseBit hsame _
    | pulseRepeat | pulseStart | pulseNoise =>
      obtain rfl := Host.Outcome.next.inj h
      obtain rfl := Host.Outcome.next.inj h'
      exact decoderPart_pulseBoundary hsame _
    | nop | connect | wdwake | pollrx | getcmd | getdgram | reserved => exact absurd hp nofun
  simpa only [State.decoderPart, Prod.mk.injEq] using hpart

/-! ### The last bit of a frame for another command (R121, R124, R125, R127, R129) -/

/-- Settles O20: of the three outcomes of the button logic (`pulseBit_last_cases`) the premises leave the press and the
release with the press, which differ in the command held before. -/
theorem commandChangeReleasesThenPresses : Obligations.CommandChangeReleasesThenPresses := by
  intro s bit mark space hc hfit hlast haddr hcmd
  obtain ⟨a, es, e, hb⟩ := pulseBit_last_cases bit hc (hfit.wordBits_le hlast) hlast
  rw [committed_eq] at e hb
  rw [exec_bitPulse, e, shl16_eq_ofNat]
  rcases hb with ⟨-, -, hne | hheld⟩ | ⟨rfl, rfl, -, hnone⟩ | ⟨old, rfl, rfl, -, hold, -⟩
  · exact absurd haddr hne
  · exact absurd hheld hcmd
  · simp [hnone]
  · simp [hold]

end Sys2Proof.Machine
end

section
/-! PROOFS. A frame among other operations (R115): along a run without boundary pulses, the bits that have come since the
frame boundary, and what they commit. -/

namespace Sys2Proof.Machine

open Sys2Proof

/-! ### The operations and the bits of a run -/

theorem operations_cons {s : State} {i : Input} {rest : List Input} (h : s.inputs = i :: rest) :
    s.operations = decode s.cfg i.word :: (s.takeInput i rest).operations := by
  rw [State.operations, h]
  rfl

theorem operations_congr {s t : State} (hi : t.inputs = s.inputs) (hc : t.cfg = s.cfg) :
    t.operations = s.operations := by
  rw [State.operations, State.operations, hi, hc]

theorem bitsOffered_cons {s : State} {i : Input} {rest : List Input} (h : s.inputs = i :: rest) :
    s.bitsOffered = (decode s.cfg i.word).bitOf.toList ++ (s.takeInput i rest).bitsOffered := by
  rw [State.bitsOffered, operations_cons h, List.filterMap_cons]
  cases (decode s.cfg i.word).bitOf <;> rfl

theorem bitsOffered_congr {s t : State} (hi : t.inputs = s.inputs) (hc : t.cfg = s.cfg) :
    t.bitsOffered = s.bitsOffered := by
  rw [State.bitsOffered, operations_congr hi hc, State.bitsOffered]

/-! ### The bits of a frame, operation by operation -/

section
variable {s : State} {high low : Word} {bits : List Bool}

/-- At a frame boundary no bit has come. -/
theorem frameBits_nil (hc : s.connected = true) (hfit : s.cfg.FrameFits) (hn : s.bitsReceived = 0#6) :
    s.FrameBits s.highWord s.lowWord [] where
  connected := hc
  count_eq := by rw [hn]; rfl
  high_eq := by simp
  low_eq := by simp
  commit h := by
    have hframe := hfit.frame_eq
    have hword := hfit.word_pos
    rw [List.length_nil] at h
    omega

/-- An operation that is no pulse leaves a frame in progress as it is. -/
theorem State.FrameBits.nonPulse {i : Instr} {t : State} (hs : s.FrameBits high low bits) (hi : i.isPulse = false)
    (h : exec i s = .next t) : t.FrameBits high low bits := by
  obtain ⟨-, -, hcfg⟩ := exec_keeps h
  obtain ⟨hcount, hhigh, hlow, hdata, -⟩ := exec_nonPulse_keeps_decoder h hi hs.connected
  refine ⟨exec_keeps_connected h hs.connected, ?_, ?_, ?_, ?_⟩
  · rw [hcount, hs.count_eq]
  · rw [hhigh, hcfg, hs.high_eq]
  · rw [hlow, hcfg, hs.low_eq]
  · rw [hcfg, hdata, hhigh, hlow]
    exact hs.commit

/-- While the frame is not complete, the datagram is the one before. -/
theorem State.FrameBits.datagram_kept {i : Instr} {t : State} (hs : s.FrameBits high low bits)
    (h : exec i s = .next t) (hlt : (bits ++ i.bitOf.toList).length < s.cfg.frameBits) : t.datagram = s.datagram := by
  by_contra hd
  obtain ⟨bit, hbit, hlast, -⟩ := onlyTheThirtySecondBitWritesTheDatagram s t i hs.connected h hd
  rw [hs.count_eq] at hlast
  rw [hbit, List.length_append] at hlt
  exact absurd hlast hlt.ne

/-- Any operation but a boundary pulse and the reserved code: its bit, if it has one, is the next of the frame. -/
theorem State.FrameBits.operation {i : Instr} (hs : s.FrameBits high low bits) (hfit : s.cfg.FrameFits)
    (hb : i.isBoundary = false) (hr : i ≠ .reserved) (hle : (bits ++ i.bitOf.toList).length ≤ s.cfg.frameBits) :
    ∃ t, exec i s = .next t ∧ t.FrameBits high low (bits ++ i.bitOf.toList) := by
  cases hbit : i.bitOf with
  | none =>
    have hp : i.isPulse = false := by rw [Instr.isPulse_iff, hbit, hb]; rfl
    obtain ⟨t, ht⟩ := exec_next_of_ne_reserved hr s
    exact ⟨t, ht, by simpa using hs.nonPulse hp ht⟩
  | some bit =>
    have hlt : bits.length < s.cfg.frameBits := by simpa [hbit] using hle
    exact ⟨_, exec_of_bitOf hbit s, hs.append hfit bit hlt⟩

/-- R115 along a run: all its bits belong to the frame, and the datagram is the one before while they do not complete
it. -/
theorem State.FrameBits.run (hs : s.FrameBits high low bits) (hfit : s.cfg.FrameFits)
    (htimes : timesFrom s.now s.inputs) (hops : ∀ i ∈ s.operations, i.isBoundary = false ∧ i ≠ .reserved)
    (hle : (bits ++ s.bitsOffered).length ≤ s.cfg.frameBits) :
    ∃ t, runSteps s.inputs.length s = .next t ∧ t.cfg = s.cfg ∧ t.FrameBits high low (bits ++ s.bitsOffered) ∧
      ((bits ++ s.bitsOffered).length < s.cfg.frameBits → t.datagram = s.datagram) := by
  induction hi : s.inputs generalizing s bits with
  | nil =>
    have hnone : s.bitsOffered = [] := by rw [State.bitsOffered, State.operations, hi]; rfl
    exact ⟨s, rfl, rfl, by rwa [hnone, List.append_nil], fun _ => rfl⟩
  | cons i rest ih =>
    rw [hi] at htimes
    rw [operations_cons hi, List.forall_mem_cons] at hops
    rw [bitsOffered_cons hi, ← List.append_assoc] at hle ⊢
    obtain ⟨⟨hb, hr⟩, hrest⟩ := hops
    have hs' := hs.takeInput i rest
    have hle' : (bits ++ (decode s.cfg i.word).bitOf.toList).length ≤ s.cfg.frameBits :=
      (List.length_append ▸ Nat.le_add_right _ _).trans hle
    obtain ⟨u, hu, hub⟩ := hs'.operation hfit hb hr hle'
    obtain ⟨hnow, hinputs, hcfg⟩ := exec_keeps hu
    have hoff := bitsOffered_congr hinputs hcfg
    rw [State.takeInput_cfg] at hcfg
    obtain ⟨t, hrun, htcfg, htb, htd⟩ := ih hub (hcfg ▸ hfit) (hinputs ▸ hnow ▸ htimes.2)
      (operations_congr hinputs hcfg ▸ hrest) (by rwa [hoff, hcfg]) hinputs
    rw [hoff] at htb htd
    refine ⟨t, ?_, htcfg.trans hcfg, htb, fun hlt => ?_⟩
    · rw [List.length_cons, runSteps_of_step ((step_cons hi htimes.1).trans hu), hrun]
    · exact (htd (hcfg ▸ hlt)).trans
        (hs'.datagram_kept hu ((List.length_append ▸ Nat.le_add_right _ _).trans_lt hlt))

end

/-- Settles O15: from a frame boundary the bits of the run are the frame so far (`State.FrameBits.run`), and they do not
complete it. -/
theorem partialFrameCommitsNothing : Obligations.PartialFrameCommitsNothing := by
  intro s hc hfit hn htimes hops hlt
  obtain ⟨t, hrun, -, htb, htd⟩ := (frameBits_nil hc hfit hn).run hfit htimes hops hlt.le
  exact ⟨t, hrun, htd hlt, htb.count_eq⟩

/-! ### The number a section spells -/

theorem bitsValue_lt (bits : List Bool) : bitsValue bits < 2 ^ bits.length := by
  induction bits with
  | nil => decide
  | cons b bits ih =>
    rw [bitsValue, List.length_cons, Nat.pow_succ]
    cases b <;> simp only [Bool.toNat_false, Bool.toNat_true] <;> omega

/-- `WORD_BITS` bits shifted into a register fill the section, whatever the register held (R51, R52, R111). -/
theorem sectionBits_foldl_shl16 {c : Config} (hword : c.wordBits ≤ 16) {bits : List Bool}
    (hlen : bits.length = c.wordBits) (w : Word) :
    sectionBits c (bits.foldl shl16 w) = BitVec.ofNat 16 (bitsValue bits) := by
  have hlt := bitsValue_lt bits
  rw [hlen] at hlt
  rw [sectionBits_eq, Config.sectionOf, foldl_shl16_eq_ofNat, hlen, BitVec.toNat_ofNat,
    Nat.mod_mod_of_dvd _ (Nat.pow_dvd_pow 2 hword), Nat.mul_add_mod_self_right,
    Nat.mod_eq_of_lt hlt]

/-- Settles O16: the bits of the run complete the frame (`State.FrameBits.run`), and each section is the number its bits
spell (`sectionBits_foldl_shl16`). -/
theorem thirtyTwoBitsCommitTheirDatagram : Obligations.ThirtyTwoBitsCommitTheirDatagram := by
  intro s hc hfit hn htimes hops hlen
  have hframe := hfit.frame_eq
  have hword := hfit.word_le
  obtain ⟨t, hrun, hcfg, htb, -⟩ := (frameBits_nil hc hfit hn).run hfit htimes hops hlen.le
  rw [List.nil_append] at htb
  have hhigh : (s.bitsOffered.take s.cfg.wordBits).length = s.cfg.wordBits := by
    rw [List.length_take]
    omega
  have hlow : (s.bitsOffered.drop s.cfg.wordBits).length = s.cfg.wordBits := by
    rw [List.length_drop]
    omega
  refine ⟨t, hrun, htb.count_eq.trans hlen, ?_⟩
  rw [htb.commit (hcfg ▸ hlen), htb.high_eq, htb.low_eq, hcfg, sectionBits_foldl_shl16 hword hhigh,
    sectionBits_foldl_shl16 hword hlow]

end Sys2Proof.Machine
end

section
/-! PROOFS. The router (spec/41_router.md): the button along a run, the events and the deadline of a step, and the last
bit of a frame that leaves the button as it is. -/

namespace Sys2Proof.Machine

open Sys2Proof

/-! ### The button held along a run (R128) -/

/-- The release of the button held, before whatever else happens. -/
theorem heldAfter_released (c : Word) (es : List Event) :
    heldAfter (some c) (.released c :: es) = heldAfter none es :=
  if_pos rfl

/-- Two sequences of events one after the other: the second starts from the button that the first leaves held. -/
theorem heldAfter_append {held held' : Option Word} {es : List Event} (h : heldAfter held es = some held')
    (es' : List Event) : heldAfter held (es ++ es') = heldAfter held' es' := by
  induction es generalizing held with
  | nil =>
    obtain rfl := Option.some.inj h
    rfl
  | cons e es ih =>
    cases e with
    | datagramReady => exact ih h
    | pressed c =>
      cases held with
      | none => exact ih h
      | some a => exact absurd h nofun
    | released d =>
      cases held with
      | none => exact absurd h nofun
      | some a =>
        by_cases had : a = d
        · subst had
          rw [heldAfter_released] at h
          rw [List.cons_append, heldAfter_released]
          exact ih h
        · exact absurd ((if_neg had).symm.trans h) nofun

/-- R128 in one operation. The premise is for the first `CONNECT`, which clears the button and raises nothing. -/
theorem exec_heldAfter {i : Instr} {s t : State} (hu : s.connected = false → s.activeCommand = none)
    (h : exec i s = .next t) : heldAfter s.activeCommand t.out.events = some t.activeCommand := by
  cases exec_effect h with
  | lastBit bit a es _ _ _ _ hb =>
    change heldAfter s.activeCommand es = some a
    rcases hb with ⟨rfl, rfl, -⟩ | ⟨rfl, rfl, -, hnone⟩ | ⟨old, rfl, rfl, -, hold, -⟩
    · rfl
    · rw [hnone]
      rfl
    · rw [hold, heldAfter_released]
      rfl
  | wakeExpired c _ _ _ ha =>
    rw [ha]
    exact heldAfter_released c []
  | connectFirst _ hc =>
    rw [hu hc]
    rfl
  | _ => rfl

/-- R128 in one step of a run: taking the offered pair touches no button. -/
theorem step_heldAfter {s t : State} (hs : s.Inv) (h : step s = .next t) :
    heldAfter s.activeCommand t.out.events = some t.activeCommand := by
  rcases step_cases h with ⟨-, rfl⟩ | ⟨i, rest, -, -, hx⟩
  · rfl
  · refine exec_heldAfter (s := s.takeInput i rest) (fun hc => ?_) hx
    obtain ⟨-, -, -, hnone⟩ := hs.unconnected hc
    exact hnone

/-- Settles O23, by induction on the number of steps: the events of the first step lead to the button held after it
(`step_heldAfter`), from which those of the rest go on (`heldAfter_append`), since the step keeps the invariants. -/
theorem buttonEventsAlternate : Obligations.ButtonEventsAlternate := by
  intro k
  induction k with
  | zero =>
    intro s t _ h
    obtain rfl := Host.Outcome.next.inj h
    rfl
  | succ k ih =>
    intro s t hs h
    obtain ⟨u, hstep, hrest⟩ := runSteps_succ h
    rw [eventsOfRun_of_step hstep, heldAfter_append (step_heldAfter hs hstep)]
    exact ih u t (stepKeepsTheInvariants s u hs hstep) hrest

/-! ### The events of a step (R127, R78, R140 to R143, R147, R150 to R155) -/

/-- What a pulse can raise; the last two lists are those of the last bit of a frame. -/
theorem exec_pulse_events {i : Instr} {s t : State} (h : exec i s = .next t) (hi : i.isPulse = true) :
    t.out.events = [] ∨ t.out.events = [.datagramReady] ∨
      (∃ c, t.out.events = [.datagramReady, .pressed c]) ∨
      (∃ a c, a ≠ c ∧ t.out.events = [.datagramReady, .released a, .pressed c]) := by
  cases exec_effect h with
  | lastBit bit _ _ _ _ _ _ hb =>
    rcases hb with ⟨rfl, -, -⟩ | ⟨rfl, -, -, -⟩ | ⟨old, rfl, -, -, -, hne⟩
    · exact .inr (.inl rfl)
    · exact .inr (.inr (.inl ⟨_, rfl⟩))
    · exact .inr (.inr (.inr ⟨old, _, hne, rfl⟩))
  | wakeExpired _ hw => exact absurd hi (by simp [hw])
  | _ => exact .inl rfl

theorem exec_wdwake_events {s t : State} (h : exec .wdwake s = .next t) :
    t.out.events = [] ∨ ∃ c, t.out.events = [.released c] := by
  rcases wake_cases h with ⟨-, rfl⟩ | ⟨-, -, -, rfl⟩ | ⟨c, -, -, -, -, rfl⟩ | ⟨_, -, -, -, -, rfl⟩
  · exact .inl rfl
  · exact .inl rfl
  · exact .inr ⟨c, rfl⟩
  · exact .inl rfl

theorem exec_other_events {i : Instr} {s t : State} (h : exec i s = .next t) (hi : i.isPulse = false)
    (hw : i ≠ .wdwake) : t.out.events = [] := by
  cases exec_effect h with
  | lastBit _ _ _ hb => exact absurd ((Instr.bitOf_of_not_pulse hi).symm.trans hb) nofun
  | wakeExpired _ hwake => exact absurd hwake hw
  | _ => rfl

/-- Settles O21: one lemma for each of the three kinds of operation. -/
theorem eventListsOfAStep : Obligations.EventListsOfAStep := by
  intro s t i h
  refine ⟨exec_pulse_events h, fun hw => ?_, exec_other_events h⟩
  subst hw
  exact exec_wdwake_events h

/-! ### The deadline (R121 to R123) -/

/-- Settles O22: of the effects, the last bit of a frame and the repeat marker refresh the deadline, and their results
are the two that the statement names; every other effect shows Incomplete or nothing. -/
theorem deadlineFollowsTheResult : Obligations.DeadlineFollowsTheResult := by
  intro s t i h
  cases exec_effect h with
  | lastBit => exact ⟨fun _ => rfl, fun hne _ => absurd rfl hne⟩
  | repeatMarker => exact ⟨fun _ => rfl, fun _ hne => absurd rfl hne⟩
  | _ => exact ⟨fun hr => hr.elim nofun nofun, fun _ _ => rfl⟩

/-! ### The last bit of a frame that leaves the button as it is (R124, R126, R130) -/

/-- A datagram of another address, or of the target with the command already held: it is committed and received, the
deadline is refreshed, and there is no button event. -/
theorem pulseBit_last_keeps_button {s : State} (bit : Bool) (hc : s.connected = true) (hfit : s.cfg.FrameFits)
    (hlast : s.bitsReceived.toNat + 1 = s.cfg.frameBits)
    (hquiet : s.cfg.sectionOf s.highWord.toNat ≠ s.cfg.targetAddress ∨
      s.activeCommand = some (s.cfg.sectionOf (2 * s.lowWord.toNat + bit.toNat))) :
    pulseBit bit s = { s with
      bitsReceived := BitVec.ofNat 6 s.cfg.frameBits
      lowWord := BitVec.ofNat 16 (2 * s.lowWord.toNat + bit.toNat)
      datagram := some ⟨s.cfg.sectionOf s.highWord.toNat, s.cfg.sectionOf (2 * s.lowWord.toNat + bit.toNat)⟩
      hasNewDatagram := true
      repeatDeadline := s.now + s.cfg.repeatWindow
      out := { decResult := some .datagramReady, events := [.datagramReady] } } := by
  obtain ⟨a, es, e, hb⟩ := pulseBit_last_cases bit hc (hfit.wordBits_le hlast) hlast
  rw [committed_eq] at e hb
  rw [e, shl16_eq_ofNat]
  rcases hb with ⟨rfl, rfl, -⟩ | ⟨-, -, haddr, hnone⟩ | ⟨old, -, -, haddr, hold, hne⟩
  · rfl
  · exact hquiet.elim (absurd haddr) fun hheld => absurd (hnone.symm.trans hheld) nofun
  · exact hquiet.elim (absurd haddr) fun hheld => absurd (Option.some.inj (hold.symm.trans hheld)) hne

/-- Settles O18: the foreign address keeps the button logic from acting (`pulseBit_last_keeps_button`). -/
theorem foreignDatagramLeavesTheButton : Obligations.ForeignDatagramLeavesTheButton := by
  intro s bit mark space hc hfit hlast haddr
  rw [exec_bitPulse, pulseBit_last_keeps_button bit hc hfit hlast (.inl haddr)]

/-- Settles O19: the command already held keeps the button logic from acting (`pulseBit_last_keeps_button`). -/
theorem sameCommandRaisesNothing : Obligations.SameCommandRaisesNothing := by
  intro s bit mark space hc hfit hlast _ hheld
  rw [exec_bitPulse, pulseBit_last_keeps_button bit hc hfit hlast (.inr hheld)]

end Sys2Proof.Machine
end

section
/-! PROOFS. The repeat watchdog (spec/42_watchdog.md): the branches of a wake, who moves the button, the bounds on the
pending sleep, and the release of a button that nothing refreshes. -/

namespace Sys2Proof

/-- R71: the code of the wake. -/
theorem decode_wdwake {w : OpWord} (h : opField w = 0b011#3) (c : Config) : decode c w = .wdwake :=
  decode_of_opField h c

/-! ### The sleeps and the release lag (R144) -/

theorem Config.wdTrackSleep_le_longestSleep (c : Config) : c.wdTrackSleep ≤ c.longestSleep :=
  Nat.le_max_left _ _

theorem Config.wdIdleSleep_le_longestSleep (c : Config) : c.wdIdleSleep ≤ c.longestSleep :=
  Nat.le_max_right _ _

theorem Config.wdTrackSleep_le_releaseLag (c : Config) : c.wdTrackSleep ≤ c.releaseLag :=
  Nat.le_max_left _ _

/-- A sleep that has begun by the time of a refresh ends within the release lag after the new deadline. -/
theorem Config.longestSleep_le_window_add_releaseLag (c : Config) :
    c.longestSleep ≤ c.repeatWindow + c.releaseLag := by
  unfold Config.longestSleep Config.releaseLag
  omega

end Sys2Proof

namespace Sys2Proof.Machine

open Sys2Proof

/-! ### The branches of a wake (R140 to R143, R147) -/

/-- Settles O24: the code (`decode_wdwake`) and the Idle branch of the pass. -/
theorem idleWakeSleepsLong : Obligations.IdleWakeSleepsLong :=
  ⟨fun c _ h => decode_wdwake h c, fun _ => exec_wdwake_idle⟩

/-- Settles O25: the code (`decode_wdwake`) and the branch past the deadline. -/
theorem expiredWakeReleases : Obligations.ExpiredWakeReleases :=
  ⟨fun c _ h => decode_wdwake h c, fun _ _ => exec_wdwake_expired⟩

/-- Settles O26: the code (`decode_wdwake`) and the branch up to the deadline. -/
theorem aliveWakeSleepsAgain : Obligations.AliveWakeSleepsAgain :=
  ⟨fun c _ h => decode_wdwake h c, fun _ _ => exec_wdwake_alive⟩

/-- Settles O27: either disjunct makes the guard of R140 fail. -/
theorem earlyOrUnconnectedWakeDoesNothing : Obligations.EarlyOrUnconnectedWakeDoesNothing :=
  fun _ => exec_wdwake_turnedAway

/-! ### Who moves the button (R145, R148) -/

theorem State.mode_eq_idle_iff (s : State) : s.mode = .idle ↔ s.activeCommand = none := by
  cases ha : s.activeCommand <;> simp [State.mode, State.activeValid, ha]

theorem State.mode_eq_tracking_iff (s : State) : s.mode = .tracking ↔ ∃ c, s.activeCommand = some c := by
  cases ha : s.activeCommand <;> simp [State.mode, State.activeValid, ha]

/-- What an operation can do to the button held: nothing and without a button event (but for the first `CONNECT`, which
clears the button before the block is connected), a first press, a change of command, or a release by timeout. -/
theorem exec_button_cases {i : Instr} {s t : State} (h : exec i s = .next t) :
    ((s.connected = true → t.activeCommand = s.activeCommand) ∧ ∀ e ∈ t.out.events, e.isButton = false) ∨
    (∃ c, i.isPulse = true ∧ s.activeCommand = none ∧ t.activeCommand = some c ∧
      t.out.events = [.datagramReady, .pressed c]) ∨
    (∃ old c, i.isPulse = true ∧ old ≠ c ∧ s.activeCommand = some old ∧ t.activeCommand = some c ∧
      t.out.events = [.datagramReady, .released old, .pressed c]) ∨
    (∃ c, i = .wdwake ∧ s.repeatDeadline < s.now ∧ s.activeCommand = some c ∧ t.activeCommand = none ∧
      t.out.events = [.released c]) := by
  cases exec_effect h with
  | lastBit bit a es hbit _ _ _ hb =>
    have hpulse := (Instr.isPulse_of_bitOf hbit).1
    rcases hb with ⟨rfl, rfl, -⟩ | ⟨rfl, rfl, -, hnone⟩ | ⟨old, rfl, rfl, -, hold, hne⟩
    · exact .inl ⟨fun _ => rfl, List.forall_mem_singleton.mpr rfl⟩
    · exact .inr (.inl ⟨_, hpulse, hnone, rfl, rfl⟩)
    · exact .inr (.inr (.inl ⟨old, _, hpulse, hne, hold, rfl, rfl⟩))
  | wakeExpired c hi _ _ ha hd => exact .inr (.inr (.inr ⟨c, hi, hd, ha, rfl, rfl⟩))
  | connectFirst _ hu => exact .inl ⟨fun hc => absurd (hc.symm.trans hu) nofun, nofun⟩
  | _ => exact .inl ⟨fun _ => rfl, nofun⟩

/-- Settles O29: of the four cases of `exec_button_cases`, only the first press begins with no button and only the release
by timeout ends with none. -/
theorem modeTransitions : Obligations.ModeTransitions := by
  intro s t i hc h
  simp only [State.mode_eq_idle_iff, State.mode_eq_tracking_iff]
  rcases exec_button_cases h with ⟨hsame, -⟩ | ⟨c, hi, hs, ht, he⟩ | ⟨old, c, -, -, hs, ht, -⟩ | ⟨c, hi, hd, hs, ht, he⟩
  · rw [hsame hc]
    exact ⟨fun hn ⟨_, hs⟩ => absurd (hn.symm.trans hs) nofun, fun ⟨_, hs⟩ hn => absurd (hn.symm.trans hs) nofun⟩
  · simp [hi, hs, ht, he]
  · simp [hs, ht]
  · simp [hi, hd, hs, ht, he]

/-- Settles O30: of the four cases of `exec_button_cases`, the change of command and the release by timeout raise one
`released`, for the button held before, and hold another button or none after. -/
theorem oneReleasePerPress : Obligations.OneReleasePerPress := by
  intro s t i c h hmem
  rcases exec_button_cases h with ⟨-, hquiet⟩ | ⟨d, -, -, -, he⟩ | ⟨old, d, -, hne, hs, ht, he⟩ | ⟨d, -, -, hs, ht, he⟩
  · exact absurd (hquiet _ hmem) nofun
  · simp [he] at hmem
  · obtain rfl : c = old := by simpa [he] using hmem
    simp [he, hs, ht, hne.symm]
  · obtain rfl : c = d := by simpa [he] using hmem
    simp [he, hs, ht]

/-! ### The bounds on the pending sleep (R144) -/

/-- The pending sleep began no later than now, whatever time passes. -/
theorem State.SleepInv.takeInput {s : State} (h : s.SleepInv) {i : Input} (ht : s.now ≤ i.now)
    (rest : List Input) : (s.takeInput i rest).SleepInv :=
  { h with sleep_le := fun hc => (h.sleep_le hc).trans (Nat.add_le_add_right ht _) }

/-- The bounds on the pending sleep for every operation, by its effect. -/
theorem exec_keeps_sleepInv {i : Instr} {s t : State} (hs : s.SleepInv) (h : exec i s = .next t) : t.SleepInv := by
  cases exec_effect h with
  | lastBit _ _ _ _ hc | repeatMarker _ _ _ hc =>
    refine ⟨hs.sleep_le, fun _ => ?_⟩
    calc s.wdWake ≤ s.now + s.cfg.longestSleep := hs.sleep_le hc
      _ ≤ s.now + (s.cfg.repeatWindow + s.cfg.releaseLag) :=
        Nat.add_le_add_left s.cfg.longestSleep_le_window_add_releaseLag _
      _ = s.now + s.cfg.repeatWindow + s.cfg.releaseLag := (Nat.add_assoc _ _ _).symm
  | wakeIdle _ _ _ ha =>
    exact ⟨fun _ => Nat.add_le_add_left s.cfg.wdIdleSleep_le_longestSleep _, fun hne => absurd ha hne⟩
  | wakeExpired =>
    exact ⟨fun _ => Nat.add_le_add_left s.cfg.wdIdleSleep_le_longestSleep _, fun hne => absurd rfl hne⟩
  | wakeAlive _ _ _ _ _ hd =>
    exact ⟨fun _ => Nat.add_le_add_left s.cfg.wdTrackSleep_le_longestSleep _,
      fun _ => Nat.add_le_add hd s.cfg.wdTrackSleep_le_releaseLag⟩
  | connectFirst => exact ⟨fun _ => Nat.le_add_right _ _, fun hne => absurd rfl hne⟩
  | _ => exact ⟨hs.sleep_le, hs.release_le⟩

/-- Settles O47: taking the offered pair keeps the bounds (`State.SleepInv.takeInput`), and so does every operation
(`exec_keeps_sleepInv`). -/
theorem stepKeepsTheSleepBounds : Obligations.StepKeepsTheSleepBounds := by
  intro s t _ hs h
  rcases step_cases h with ⟨-, rfl⟩ | ⟨i, rest, -, ht, hx⟩
  · exact ⟨hs.sleep_le, hs.release_le⟩
  · exact exec_keeps_sleepInv (hs.takeInput ht rest) hx

/-! ### A held button that nothing refreshes (R144, R146) -/

/-- The button `c` is held under the deadline `deadline`, and the pending sleep ends by `latest`, as does any that begins
by the deadline. -/
structure State.Held (s : State) (c : Word) (deadline latest : Nat) : Prop where
  connected : s.connected = true
  active : s.activeCommand = some c
  deadline_eq : s.repeatDeadline = deadline
  wake_le : s.wdWake ≤ latest
  track_le : deadline + s.cfg.wdTrackSleep ≤ latest

/-- The step just taken released the button `c`, after the deadline `deadline`. -/
structure State.Released (t : State) (c : Word) (deadline : Nat) : Prop where
  active : t.activeCommand = none
  events : t.out.events = [.released c]
  deadline_lt : deadline < t.now

/-- A button is held in connected states only (R41 (ii)). -/
theorem State.Inv.connected_of_active {s : State} (h : s.Inv) {c : Word} (ha : s.activeCommand = some c) :
    s.connected = true := by
  by_contra hc
  obtain ⟨-, -, -, hnone⟩ := h.unconnected (by simpa using hc)
  exact absurd (ha.symm.trans hnone) nofun

section
variable {s t : State} {c : Word} {deadline latest : Nat}

theorem State.Held.takeInput (h : s.Held c deadline latest) (i : Input) (rest : List Input) :
    (s.takeInput i rest).Held c deadline latest :=
  ⟨h.connected, h.active, h.deadline_eq, h.wake_le, h.track_le⟩

/-- Whether a button is held does not depend on what the run offers next. -/
theorem State.Held.setInputs (h : s.Held c deadline latest) (rest : List Input) :
    State.Held { s with inputs := rest } c deadline latest :=
  ⟨h.connected, h.active, h.deadline_eq, h.wake_le, h.track_le⟩

/-- An operation that does not refresh the deadline leaves the button held under it, or is the release. -/
theorem State.Held.exec_held_or_released {i : Instr} (hs : s.Held c deadline latest) (h : exec i s = .next t)
    (hready : t.out.decResult ≠ some .datagramReady) (hrepeat : t.out.decResult ≠ some .repeatMarker) :
    t.Held c deadline latest ∨ t.Released c deadline := by
  obtain ⟨hc, ha, rfl, hwake, htrack⟩ := hs
  cases exec_effect h with
  | lastBit => exact absurd rfl hready
  | repeatMarker => exact absurd rfl hrepeat
  | wakeIdle _ _ _ hnone => exact absurd (ha.symm.trans hnone) nofun
  | wakeExpired d _ _ _ hd hlt =>
    obtain rfl := Option.some.inj (ha.symm.trans hd)
    exact .inr ⟨rfl, rfl, hlt⟩
  | wakeAlive _ _ _ _ _ hle => exact .inl ⟨hc, ha, rfl, (Nat.add_le_add_right hle _).trans htrack, htrack⟩
  | connectFirst _ hu => exact absurd (hc.symm.trans hu) nofun
  | _ => exact .inl ⟨hc, ha, rfl, hwake, htrack⟩

theorem State.Held.held_or_released (hs : s.Held c deadline latest) (h : step s = .next t)
    (hready : t.out.decResult ≠ some .datagramReady) (hrepeat : t.out.decResult ≠ some .repeatMarker) :
    t.Held c deadline latest ∨ t.Released c deadline := by
  rcases step_cases h with ⟨-, rfl⟩ | ⟨i, rest, -, -, hx⟩
  · exact .inl ⟨hs.connected, hs.active, hs.deadline_eq, hs.wake_le, hs.track_le⟩
  · exact (hs.takeInput i rest).exec_held_or_released hx hready hrepeat

/-- A wake offered after the deadline, when every sleep has ended, leaves no button held. -/
theorem State.Held.active_of_wake (hs : s.Held c deadline latest) {i : Input} {rest : List Input}
    (hi : s.inputs = i :: rest) (ht : s.now ≤ i.now) (hw : decode s.cfg i.word = .wdwake)
    (hdead : deadline < i.now) (hlate : latest ≤ i.now) (h : step s = .next t) : t.activeCommand = none := by
  obtain ⟨hc, ha, rfl, hwake, -⟩ := hs.takeInput i rest
  rw [step_cons hi ht, hw, exec_wdwake_expired hc (hwake.trans hlate) ha hdead] at h
  obtain rfl := Host.Outcome.next.inj h
  rfl

/-! ### The bounded form of the obligation (R144) -/

/-- On schedule, time does not pass the latest end of the pending sleep by more than the slack. -/
theorem State.Held.now_le (hs : s.Held c deadline latest) {slack k : Nat} (hsched : onSchedule slack (k + 1) s)
    (hnow : s.now ≤ latest + slack) (h : step s = .next t) : t.now ≤ latest + slack := by
  rcases step_cases h with ⟨-, rfl⟩ | ⟨i, rest, hi, -, hx⟩
  · exact hnow
  · obtain ⟨ht, -, -⟩ := exec_keeps hx
    obtain ⟨hwithin, -⟩ := hsched
    rw [ht]
    exact (hwithin i rest hi hs.connected).trans (Nat.add_le_add_right hs.wake_le _)

/-- A run on schedule, without a refresh, that goes past the latest end of a sleep and the slack holds the release. -/
theorem State.Held.run {slack k : Nat} (hs : s.Held c deadline latest) (hnow : s.now ≤ latest + slack)
    (hsched : onSchedule slack k s) (hquiet : noRefresh k s) (h : runSteps k s = .next t)
    (hlate : latest + slack < t.now) :
    ∃ j u v, j < k ∧ runSteps j s = .next u ∧ step u = .next v ∧ u.activeCommand = some c ∧
      v.Released c deadline ∧ v.now ≤ latest + slack := by
  induction k generalizing s with
  | zero =>
    obtain rfl := Host.Outcome.next.inj h
    exact absurd hnow (Nat.not_le.mpr hlate)
  | succ k ih =>
    obtain ⟨u, hstep, hrest⟩ := runSteps_succ h
    obtain ⟨hready, hrepeat, hquiet'⟩ := hquiet u hstep
    have hnow' := hs.now_le hsched hnow hstep
    obtain ⟨-, hsched'⟩ := hsched
    rcases hs.held_or_released hstep hready hrepeat with hheld | hrel
    · obtain ⟨j, v, w, hj, hrun, hv⟩ := ih hheld hnow' (hsched' u hstep) hquiet' hrest
      exact ⟨j + 1, v, w, Nat.succ_lt_succ hj, (runSteps_of_step hstep).trans hrun, hv⟩
    · exact ⟨0, s, u, Nat.succ_pos k, rfl, hstep, hs.active, hrel, hnow'⟩

end

/-- Settles O31: the bounds on the pending sleep make the button held with every sleep ending within the release lag
after the deadline, and such a run holds the release (`State.Held.run`). -/
theorem releaseComesWithinTheBound : Obligations.ReleaseComesWithinTheBound := by
  intro k s t c slack hinv hsleep ha hfresh _ hsched hquiet hrun hlate
  have hheld : s.Held c s.repeatDeadline (s.repeatDeadline + s.cfg.releaseLag) :=
    { connected := hinv.connected_of_active ha
      active := ha
      deadline_eq := rfl
      wake_le := hsleep.release_le (ha ▸ Option.some_ne_none c)
      track_le := Nat.add_le_add_left s.cfg.wdTrackSleep_le_releaseLag _ }
  obtain ⟨j, u, v, hj, hu, hv, hactive, ⟨hnone, hevents, hlt⟩, hle⟩ :=
    hheld.run (by omega) hsched hquiet hrun hlate
  exact ⟨j, u, v, hj, hu, hv, hactive, hnone, hevents, hlt, hle⟩

/-! ### The unbounded form of the obligation (R146) -/

section
variable {inp : Nat → Input} {st : Nat → State}

/-- Step `k` takes input `inp k`, at its time. -/
theorem IsRun.step_time (h : IsRun inp st) (k : Nat) : (st k).now ≤ (inp k).now ∧ (st (k + 1)).now = (inp k).now := by
  rcases step_cases (h k) with ⟨hi, -⟩ | ⟨i, rest, hi, ht, hx⟩
  · exact absurd hi (List.cons_ne_nil _ _)
  · obtain ⟨rfl, -⟩ := List.cons.inj hi
    exact ⟨ht, (exec_keeps hx).1⟩

theorem IsRun.monotone_now (h : IsRun inp st) : Monotone fun k => (inp k).now :=
  monotone_nat_of_le_succ fun k => (h.step_time k).2 ▸ (h.step_time (k + 1)).1

/-- In a run without a refresh the button stays held as long as no step releases it. -/
theorem IsRun.held {c : Word} {deadline latest : Nat} (h : IsRun inp st) (hquiet : NeverRefreshed st)
    (hs : (st 0).Held c deadline latest)
    (hno : ∀ k, (st k).activeCommand = some c → ¬ (st (k + 1)).Released c deadline) (k : Nat) :
    (st k).Held c deadline latest := by
  induction k with
  | zero => exact hs
  | succ k ih =>
    obtain ⟨hready, hrepeat⟩ := hquiet k
    exact ((ih.setInputs [inp k]).held_or_released (h k) hready hrepeat).resolve_right (hno k ih.active)

end

/-- Settles O32: were there no release, the button would stay held (`IsRun.held`); once time has passed the deadline and
every sleep that begins by it, the guard of the wake holds for good, so fairness brings a wake, which leaves no button
held (`State.Held.active_of_wake`). -/
theorem fairWatchdogReleases : Obligations.FairWatchdogReleases := by
  intro inp st c hrun hinv ha hdiv hfair hquiet
  by_contra hno
  have hstart : (st 0).Held c (st 0).repeatDeadline
      (max (st 0).wdWake ((st 0).repeatDeadline + (st 0).cfg.wdTrackSleep)) :=
    ⟨hinv.connected_of_active ha, ha, rfl, Nat.le_max_left _ _, Nat.le_max_right _ _⟩
  generalize max (st 0).wdWake _ = latest at hstart
  have hheld := hrun.held hquiet hstart fun k hk hrel => hno ⟨k, hk, hrel.active, hrel.events, hrel.deadline_lt⟩
  obtain ⟨n, hn⟩ := hdiv (max ((st 0).repeatDeadline + 1) latest)
  obtain ⟨hdead, hlate⟩ := max_le_iff.mp hn
  have hlate' : ∀ j, n ≤ j → latest ≤ (inp j).now := fun j hj => hlate.trans (hrun.monotone_now hj)
  obtain ⟨j, hj, hw⟩ :=
    hfair n fun j hj => ⟨(hheld j).connected, (hheld j).wake_le.trans (hlate' j hj)⟩
  have hnone : (st (j + 1)).activeCommand = none :=
    ((hheld j).setInputs [inp j]).active_of_wake rfl (hrun.step_time j).1 hw
      (Nat.lt_of_lt_of_le hdead (hrun.monotone_now hj)) (hlate' j hj) (hrun j)
  exact absurd ((hheld (j + 1)).active.symm.trans hnone) nofun

end Sys2Proof.Machine
end

section
/-! PROOFS. The consumer (spec/43_host.md): the branches of `CONNECT`, what each query answers and writes, and the
queries before the first `CONNECT`. -/

namespace Sys2Proof.Machine

open Sys2Proof

/-! ### The branches of `CONNECT` (R150, R151) -/

theorem exec_connect_unconnected {s : State} (hc : s.connected = false) :
    exec .connect s = .next { s with
      connected := true
      bitsReceived := 0#6
      datagram := none
      hasNewDatagram := false
      activeCommand := none
      wdWake := s.now
      out := {} } :=
  congrArg Host.Outcome.next (if_neg (ne_true_of_eq_false hc))

theorem exec_connect_connected {s : State} (hc : s.connected = true) :
    exec .connect s = .next { s with out := {} } :=
  congrArg Host.Outcome.next (if_pos hc)

/-- Settles O33: the code and the branch of `CONNECT` that creates the state. -/
theorem firstConnectCreatesTheState : Obligations.FirstConnectCreatesTheState :=
  ⟨fun c _ h => decode_of_opField h c, fun _ => exec_connect_unconnected⟩

/-- Settles O34: the code and the branch of `CONNECT` that finds the state created. -/
theorem secondConnectIsNoOp : Obligations.SecondConnectIsNoOp :=
  ⟨fun c _ h => decode_of_opField h c, fun _ => exec_connect_connected⟩

/-! ### `NOP` and the queries (R152 to R155)

What a query reads enters as an equation, so that one lemma serves any state and a state whose flag or datagram is
known. -/

theorem exec_pollrx {s : State} {b : Bool} (h : s.hasNewDatagram = b) :
    exec .pollrx s = .next { s with hasNewDatagram := false, out := { reply := some (.flag b) } } := by
  subst h
  rfl

theorem exec_getcmd {s : State} {d : Option Datagram} (h : s.datagram = d) :
    exec .getcmd s = .next { s with out := { reply := some (.command (d.map Datagram.command)) } } := by
  subst h
  rfl

theorem exec_getdgram {s : State} {d : Option Datagram} (h : s.datagram = d) :
    exec .getdgram s = .next { s with out := { reply := some (.datagram d) } } := by
  subst h
  rfl

theorem exec_nop (s : State) : exec .nop s = .next { s with out := {} } := rfl

/-- Settles O35: the first poll leaves the flag 0, and that is what the second one reads. -/
theorem pollTakesAndClears : Obligations.PollTakesAndClears :=
  ⟨fun c _ h => decode_of_opField h c, fun _ => ⟨_, exec_pollrx rfl, rfl, rfl, exec_pollrx rfl⟩⟩

/-- Settles O36: the code, and `exec_getcmd` at a datagram and at none. -/
theorem getCommandReadsTheDatagram : Obligations.GetCommandReadsTheDatagram :=
  ⟨fun c _ h => decode_of_opField h c, fun _ => ⟨fun _ => exec_getcmd, exec_getcmd⟩⟩

/-- Settles O37: the code, and `exec_getdgram` at a datagram, which is its two sections, and at none. -/
theorem getDatagramReadsBothSections : Obligations.GetDatagramReadsBothSections :=
  ⟨fun c _ h => decode_of_opField h c, fun _ => ⟨fun _ => exec_getdgram, exec_getdgram⟩⟩

/-- Settles O38: the code and `exec_nop`. -/
theorem nopChangesNothing : Obligations.NopChangesNothing :=
  ⟨fun c _ h => decode_of_opField h c, exec_nop⟩

/-! ### The queries before `CONNECT` (R157) -/

/-- A poll that finds the flag 0 has nothing to clear. -/
theorem exec_pollrx_false {s : State} (h : s.hasNewDatagram = false) :
    exec .pollrx s = .next { s with out := { reply := some (.flag false) } } := by
  rw [exec_pollrx h, h]

/-- Settles O39: before `CONNECT` the invariants leave no datagram and the flag 0 (R41 (ii)), which is what the queries
read. -/
theorem queriesBeforeConnect : Obligations.QueriesBeforeConnect := by
  intro s hinv hc
  obtain ⟨-, hnone, hflag, -⟩ := hinv.unconnected hc
  exact ⟨exec_pollrx_false hflag, exec_getcmd hnone, exec_getdgram hnone⟩

end Sys2Proof.Machine
end

section
/-! PROOFS. Errors and simultaneous events (spec/60_exceptions.md sections 1 and 3): which steps have a next state, and the
order of a wake and a pulse at one instant. -/

namespace Sys2Proof

open Sys2Proof.Machine

/-! ### The reserved code (R80) -/

/-- The decoder keeps the code, whatever it leaves out of the rest of the word. -/
theorem opField_encode_decode (c : Config) (w : OpWord) : opField (encode (decode c w)) = opField w := by
  obtain ⟨-, hword⟩ := encodeOfDecodeKeepsWord c w
  rw [hword]
  split
  · rfl
  · exact opField_packWord _ _ _

theorem decode_eq_reserved_iff (c : Config) (w : OpWord) : decode c w = .reserved ↔ w.toNat / 2 ^ 32 = 7 := by
  refine ⟨fun h => ?_, fun h => decode_of_opField (opField_eq_ofNat h) c⟩
  rw [← opField_toNat, ← opField_encode_decode c, h]
  rfl

end Sys2Proof

namespace Sys2Proof.Machine

open Sys2Proof

/-! ### The steps that have a next state (R170, R207) -/

theorem exec_completes_iff (i : Instr) (s : State) : (∃ t, exec i s = .next t) ↔ i ≠ .reserved := by
  refine ⟨?_, fun h => exec_next_of_ne_reserved h s⟩
  rintro ⟨t, h⟩ rfl
  exact absurd h nofun

/-- R155: with nothing offered a step is a `NOP`. -/
theorem step_nil {s : State} (h : s.inputs = []) : step s = .next { s with out := {} } := by
  have hnop : decode s.cfg (encode .nop) = .nop := decode_packWord _ _ _ _
  simp only [step, offered_nil h, hnop]
  exact exec_nop s

theorem step_backwards {s : State} {i : Input} {rest : List Input} (h : s.inputs = i :: rest)
    (ht : i.now < s.now) : step s = .refused .timeRanBackwards := by
  simp only [step, offered_backwards h ht]

theorem step_cons_completes_iff {s : State} {i : Input} {rest : List Input} (h : s.inputs = i :: rest) :
    (∃ t, step s = .next t) ↔ s.now ≤ i.now ∧ i.word.toNat / 2 ^ 32 ≠ 7 := by
  by_cases ht : s.now ≤ i.now
  · rw [step_cons h ht, exec_completes_iff, Ne, decode_eq_reserved_iff, and_iff_right ht]
  · rw [step_backwards h (Nat.not_le.mp ht)]
    exact iff_of_false nofun fun hpair => ht hpair.1

/-- Settles O43: with nothing offered the step is a `NOP` (`step_nil`); on an offered pair the two refusals are time running
backwards and the reserved code, and no other operation is refused (`step_cons_completes_iff`). -/
theorem everyOfferedStepCompletes : Obligations.EveryOfferedStepCompletes := by
  intro s
  cases hi : s.inputs with
  | nil => exact iff_of_true ⟨_, step_nil hi⟩ nofun
  | cons i rest =>
    rw [step_cons_completes_iff hi]
    refine ⟨?_, fun h => h i rest rfl⟩
    rintro h _ _ ⟨⟩
    exact h

/-! ### A wake and a pulse at one instant (R178) -/

/-- Settles O49: a wake first finds the deadline passed (`exec_wdwake_expired`), and the last bit then finds no button held
(O20, `commandChangeReleasesThenPresses`); the bit first finds its own button held (O19, `sameCommandRaisesNothing`) and
moves the deadline past now, so the wake then sleeps again (`exec_wdwake_alive`). -/
theorem arbitrationOrderShows : Obligations.ArbitrationOrderShows := by
  intro s bit mark space c hc hfit hlast haddr hcmd ha hw hd
  subst hcmd
  constructor
  · exact ⟨_, _, exec_wdwake_expired hc hw ha hd,
      commandChangeReleasesThenPresses _ bit mark space hc hfit hlast haddr nofun, rfl, rfl, rfl, rfl, rfl⟩
  · exact ⟨_, _, sameCommandRaisesNothing s bit mark space hc hfit hlast haddr ha,
      exec_wdwake_alive hc hw ha (Nat.le_add_right _ _), rfl, rfl, ha, rfl, rfl⟩

end Sys2Proof.Machine
end

section
/-! PROOFS. Reset and hazards (spec/70_reset_and_hazards.md): what hardware reset leaves, and a run whose time decreases. -/

namespace Sys2Proof.Machine

open Sys2Proof

/-! ### Reset (R200 to R202) -/

/-- R201: hardware reset forgets everything but the configuration, so right after power-up it changes nothing. -/
@[simp] theorem hardwareReset_powerUp (c : Config) : hardwareReset (State.powerUp c) = State.powerUp c := rfl

/-- Settles O48: the values are those `State.powerUp` gives, and the state after power-up is a fixed point of hardware
reset (`hardwareReset_powerUp`). -/
theorem resetLeavesTheBlockUnconnected : Obligations.ResetLeavesTheBlockUnconnected := by
  intro s
  exact ⟨rfl, rfl, rfl, rfl, rfl, rfl, rfl, (hardwareReset_powerUp Config.reference).symm⟩

/-! ### A run whose time decreases (R207) -/

/-- Settles O42: an earlier time is refused before the word is decoded (`step_backwards`), and with nothing offered the
step is a `NOP` (`step_nil`). -/
theorem timeMustNotRunBackwards : Obligations.TimeMustNotRunBackwards :=
  ⟨fun _ _ _ h ht => step_backwards h ht, fun _ h => step_nil h⟩

end Sys2Proof.Machine
end
